-- ==== Sys2Proof/Word.lean ====
section
/-!
DEFINITION. The word types of the BubbleUniverse CORE (00_scope.md R9, R11): 32-bit datapath words, bytes of
frame-buffer memory, 24-bit colours, bank numbers.
-/
namespace Sys2Proof

/-- A register, datapath or frame-buffer word (R9). Two's complement where it is signed; `+` and `*` wrap modulo
2^32, which are the spec's `+32` and `*32` (R12). -/
abbrev Word := BitVec 32

/-- One byte of system memory. -/
abbrev Byte := BitVec 8

/-- One 16-bit half of a WROM word (40_waveform_rom.md R103). -/
abbrev Half := BitVec 16

/-- A packed Y/U/V colour, a GROM entry (41_gradient_rom.md R125). -/
abbrev Color := BitVec 24

/-- A bank number, 0 or 1 (00_scope.md R14). -/
abbrev Bank := BitVec 1

end Sys2Proof
end

