-- ==== Sys2Proof/Syntax.lean ====
section
/-!
DEFINITION. The commands of the block (30_encoding.md R85), one constructor per row of spec/opcode_table.json, with
the operands of the command syntax (R90) as plain numbers; WellFormed says which numbers a command word can carry.
-/
namespace Sys2Proof

/-- A command (30_encoding.md R81, R90). -/
inductive Instr where
  /-- `NOP`, 44_frame_control.md R180 -/
  | nop
  /-- `CLEAR <b>`, 43_compositor.md R165 -/
  | clear (b : Nat)
  /-- `RENDER`, 42_curve_engine.md R147 -/
  | render
  /-- `PRESENT`, 44_frame_control.md R182 -/
  | present
  /-- `ADVANCE`, 44_frame_control.md R183 -/
  | advance
  /-- `DRAW`, 44_frame_control.md R181 -/
  | draw
  /-- `PLOT`, 43_compositor.md R166 -/
  | plot
  /-- `WLOOKUP <idx>`, 40_waveform_rom.md R108 -/
  | wlookup (idx : Nat)
  /-- `GLOOKUP <gidx>`, 41_gradient_rom.md R127 -/
  | glookup (gidx : Nat)
  /-- `CSTEP`, 42_curve_engine.md R146 -/
  | cstep
  deriving DecidableEq, Repr

end Sys2Proof
end

