-- ==== Sys2Proof/WellFormed.lean ====
section
/-!
DEFINITION. The operand ranges of the command syntax (30_encoding.md R90): the commands a command word can carry.
-/
namespace Sys2Proof

/-- `b in {0, 1}`, `idx in 0..16383`, `gidx in 0..65535` (30_encoding.md R82 to R84, R90). -/
def Instr.wf : Instr → Bool
  | .clear b => decide (b < 2)
  | .wlookup idx => decide (idx < 16384)
  | .glookup gidx => decide (gidx < 65536)
  | .nop => true
  | .render => true
  | .present => true
  | .advance => true
  | .draw => true
  | .plot => true
  | .cstep => true

end Sys2Proof
end

