-- ==== Sys2Proof/Decode.lean ====
section
/-!
DEFINITION. Command words (30_encoding.md): the decoder, total on every 32-bit word and rejecting by name (R86, R87),
the encoder written from the same table (R85), and the host's view of the decoder.
-/
namespace Sys2Proof

/-- Why a command word is no command (30_encoding.md R86, R87). -/
inductive DecodeError where
  /-- the OP field is 0x0A to 0xFF (R86) -/
  | illegalOpcode
  /-- a legal OP with a non-zero bit where R81 requires zero (R87) -/
  | reservedField
  deriving DecidableEq, Repr

/-- One row of the opcode map of 30_encoding.md R85. -/
structure OpRow where
  mnemonic : String
  /-- the value of the fixed bits -/
  pattern : Word
  /-- 1 at each fixed bit -/
  mask : Word
  deriving DecidableEq, Repr

/-- The opcode map (30_encoding.md R85); the row of opcode OP stands at place OP. -/
def opTable : List OpRow :=
  [⟨"NOP", 0x00000000, 0xFFFFFFFF⟩,
   ⟨"CLEAR", 0x00000001, 0xFFFFFEFF⟩,
   ⟨"RENDER", 0x00000002, 0xFFFFFFFF⟩,
   ⟨"PRESENT", 0x00000003, 0xFFFFFFFF⟩,
   ⟨"ADVANCE", 0x00000004, 0xFFFFFFFF⟩,
   ⟨"DRAW", 0x00000005, 0xFFFFFFFF⟩,
   ⟨"PLOT", 0x00000006, 0xFFFFFFFF⟩,
   ⟨"WLOOKUP", 0x00000007, 0xC000FFFF⟩,
   ⟨"GLOOKUP", 0x00000008, 0x0000FFFF⟩,
   ⟨"CSTEP", 0x00000009, 0xFFFFFFFF⟩]

/-- The fields of format F0 (30_encoding.md R80): OP, bits 7:0. -/
def opField (w : Word) : Nat := (w.extractLsb' 0 8).toNat

/-- BANK, bit 8, the operand of CLEAR (30_encoding.md R84). -/
def bankField (w : Word) : Nat := (w.extractLsb' 8 1).toNat

/-- `zext_14(cmd[29:16])`, the operand of WLOOKUP (30_encoding.md R82). -/
def wromIndexField (w : Word) : Nat := (w.extractLsb' 16 14).toNat

/-- `zext_16(cmd[31:16])`, the operand of GLOOKUP (30_encoding.md R83). -/
def gromIndexField (w : Word) : Nat := (w.extractLsb' 16 16).toNat

/-- The command of opcode `op` with its operands taken from `w` (30_encoding.md R81). -/
def assemble (op : Nat) (w : Word) : Instr :=
  match op with
  | 0 => .nop
  | 1 => .clear (bankField w)
  | 2 => .render
  | 3 => .present
  | 4 => .advance
  | 5 => .draw
  | 6 => .plot
  | 7 => .wlookup (wromIndexField w)
  | 8 => .glookup (gromIndexField w)
  | _ => .cstep

/-- The decoder, in the check order of 60_exceptions.md R202: the opcode first (R86), then the reserved fields
(R87). -/
def decode (w : Word) : Except DecodeError Instr :=
  match opTable[opField w]? with
  | none => .error .illegalOpcode
  | some row => if w &&& row.mask = row.pattern then .ok (assemble (opField w) w) else .error .reservedField

/-- The OP field of a command (30_encoding.md R81). -/
def opcode : Instr → Nat
  | .nop => 0x00
  | .clear _ => 0x01
  | .render => 0x02
  | .present => 0x03
  | .advance => 0x04
  | .draw => 0x05
  | .plot => 0x06
  | .wlookup _ => 0x07
  | .glookup _ => 0x08
  | .cstep => 0x09

/-- The word of 30_encoding.md R85 with the operand fields filled (R91 `encode`); every bit that no operand fills is
0. -/
def encode (i : Instr) : Word :=
  match i with
  | .clear b => BitVec.ofNat 32 (opcode i + b * 0x100)
  | .wlookup idx => BitVec.ofNat 32 (opcode i + idx * 0x10000)
  | .glookup gidx => BitVec.ofNat 32 (opcode i + gidx * 0x10000)
  | .nop => BitVec.ofNat 32 (opcode i)
  | .render => BitVec.ofNat 32 (opcode i)
  | .present => BitVec.ofNat 32 (opcode i)
  | .advance => BitVec.ofNat 32 (opcode i)
  | .draw => BitVec.ofNat 32 (opcode i)
  | .plot => BitVec.ofNat 32 (opcode i)
  | .cstep => BitVec.ofNat 32 (opcode i)

/-- The command the decoder reads from a command word whose bits are `w` (opcode_table.json numbers a command word's
bits as 30_encoding.md R80 does; every command has 32 of them, R89, so bits above `nbits` are 0). A number that is no
32-bit word is no command. -/
def decodeTableWord (nbits w : Nat) : Option Instr :=
  if w < 2 ^ nbits ∧ w < 2 ^ 32 then (decode (BitVec.ofNat 32 w)).toOption else none

end Sys2Proof
end

