-- ==== Sys2Proof/Config.lean ====
section
/-!
DEFINITION. What an integration of the block fixes, and the free values (00_scope.md R6 to R8, 10_state.md R20,
92_eei_decisions.md D2, D6, D13, D29, D32). The spec leaves every one of them open, so each is an opaque constant with
no body: nothing can be proved about its value. `Params` gathers what the block itself reads, so that a state can be
written down for any of them.
-/
namespace Sys2Proof

/-- The implementation parameters the block reads (00_scope.md R6 to R8). -/
structure Params where
  /-- WIDTH, the surface width in pixels (R6) -/
  width : Nat
  /-- HEIGHT, the surface height in pixels (R6) -/
  height : Nat
  /-- BG_WORD, the word a clear writes (R8) -/
  bgWord : Word
  /-- QUARTER[0..4095], each entry an integer in [0, 32767] (R7) -/
  quarter : List (BitVec 15)
  deriving DecidableEq, Repr

/-- Each entry is at most the next one (00_scope.md R7). -/
def nondecreasing : List (BitVec 15) → Bool
  | [] => true
  | [_] => true
  | a :: b :: rest => decide (a.toNat ≤ b.toNat) && nondecreasing (b :: rest)

/-- The constraints of 00_scope.md R6 and R7. -/
abbrev Params.Admissible (p : Params) : Prop :=
  p.width % 2 = 0 ∧ 2 ≤ p.width ∧ p.width ≤ 32768 ∧ 1 ≤ p.height ∧ p.height ≤ 32768 ∧
    p.quarter.length = 4096 ∧ nondecreasing p.quarter = true

/-- Fixes WIDTH = 2 * (value + 1), which is every even number from 2 to 32768 (00_scope.md R6; log entry 4). -/
opaque Config.halfWidthLessOne : BitVec 14

/-- Fixes HEIGHT = value + 1, which is every number from 1 to 32768 (00_scope.md R6; log entry 4). -/
opaque Config.heightLessOne : BitVec 15

/-- BG_WORD (00_scope.md R8, 92_eei_decisions.md D13; log entry 6). -/
opaque Config.bgWord : Word

/-- Fixes QUARTER: its entry r is the greatest of the values at 0 to r, so every non-decreasing table is the table of
some such sequence, and no other is (00_scope.md R7, 92_eei_decisions.md D6; log entry 5). -/
opaque Config.quarterSeed : Nat → BitVec 15

/-- REG_BASE, the platform address of the register window (10_state.md R20, 92_eei_decisions.md D2; log entry 7). -/
opaque Config.regBase : Word

/-- FREE VALUE: what the byte at an address holds while nothing has written it (70_reset_and_hazards.md R249,
93_implementation_defined.md I12; log entry 8). -/
opaque Config.unwrittenByte : Nat → Byte

/-- The greatest of the seeds at 0 to r. -/
def Config.quarterEntry : Nat → BitVec 15
  | 0 => Config.quarterSeed 0
  | r + 1 => if (Config.quarterEntry r).toNat ≤ (Config.quarterSeed (r + 1)).toNat
      then Config.quarterSeed (r + 1) else Config.quarterEntry r

/-- The parameters of this machine. -/
def Config.params : Params where
  width := 2 * (Config.halfWidthLessOne.toNat + 1)
  height := Config.heightLessOne.toNat + 1
  bgWord := Config.bgWord
  quarter := (List.range 4096).map Config.quarterEntry

/-- The platform address of a register (30_encoding.md R90: `REG_BASE + offset(REG)`). -/
def Config.regAddress (off : Byte) : Word := Config.regBase + off.setWidth 32

/-- A value of the host's float format HOST_FLOAT (60_exceptions.md R220, 92_eei_decisions.md D29): every finite value
of any such format is a quotient num / den (log entry 18). -/
structure HostFloat where
  num : Int
  den : Nat
  deriving DecidableEq, Repr, Inhabited

/-- HOST_FLOAT: the value of the format that an exact result is stored as (60_exceptions.md R220; log entry 18). -/
opaque Config.hostRound : HostFloat → HostFloat

/-- The host's directional inputs (60_exceptions.md R222). -/
inductive PanDir where
  | left | right | up | down
  deriving DecidableEq, Repr

/-- HOST_PAN_STEP: what a held direction adds to its accumulator each frame (60_exceptions.md R222; log entry 19). -/
opaque Config.hostPanStep : PanDir → HostFloat

/-- HOST_ZOOM: fixes the numerator of the ratio, as value + 1 (60_exceptions.md R223; log entry 19). -/
opaque Config.hostZoomNumLessOne : Nat

/-- HOST_ZOOM: fixes the denominator of the ratio, as value + 1 (60_exceptions.md R223; log entry 19). -/
opaque Config.hostZoomDenLessOne : Nat

/-- HOST_ZOOM: the fixed per-frame ratio, any positive quotient (60_exceptions.md R223; log entry 19). -/
def Config.hostZoomRatio : HostFloat := ⟨Config.hostZoomNumLessOne + 1, Config.hostZoomDenLessOne + 1⟩

/-- HOST_ZOOM: which of the two zoom inputs multiplies by the ratio (60_exceptions.md R223; log entry 19). -/
opaque Config.hostZoomInMultiplies : Bool

/-- HOST_ZOOM: whether the pan accumulators are scaled about the screen centre (true) or about the origin (false)
(60_exceptions.md R223; log entry 19). -/
opaque Config.hostZoomAboutCentre : Bool

end Sys2Proof
end

