-- ==== Sys2Proof/Machine/Memory.lean ====
section
/-!
DEFINITION. System memory (20_memory.md R61): 2^32 bytes, held as the list of the bytes that have been written, in
strictly rising order of address. A byte nothing has written is not listed: it holds no value, and reading it gives
the free value Config.unwrittenByte (70_reset_and_hazards.md R249). Words are big-endian (20_memory.md R64).
-/
namespace Sys2Proof.Machine

/-- The written bytes, addresses strictly rising. -/
abbrev Memory := List Host.Cell

/-- The value last written to address `a`, if any. -/
def Memory.get? : Memory → Nat → Option Byte
  | [], _ => none
  | (k, v) :: m, a => if k = a then some v else Memory.get? m a

/-- The byte at address `a` (70_reset_and_hazards.md R249 for one nothing has written; log entry 8). -/
def Memory.readByte (m : Memory) (a : Word) : Byte := (m.get? a.toNat).getD (Config.unwrittenByte a.toNat)

/-- Put `v` at address `a`, keeping the addresses strictly rising. -/
def Memory.insert : Memory → Nat → Byte → Memory
  | [], a, v => [(a, v)]
  | (k, u) :: m, a, v =>
    if a < k then (a, v) :: (k, u) :: m
    else if a = k then (a, v) :: m
    else (k, u) :: Memory.insert m a v

/-- Write one byte. -/
def Memory.writeByte (m : Memory) (a : Word) (v : Byte) : Memory := m.insert a.toNat v

/-- `MemRead(a, 4)` (00_scope.md R13), big-endian (20_memory.md R64). -/
def Memory.readWord (m : Memory) (a : Word) : Word :=
  m.readByte a ++ m.readByte (a + 1) ++ m.readByte (a + 2) ++ m.readByte (a + 3)

/-- `MemWrite(a, 4, v)` (00_scope.md R13), big-endian (20_memory.md R64). -/
def Memory.writeWord (m : Memory) (a v : Word) : Memory :=
  (((m.writeByte a (v.extractLsb' 24 8)).writeByte (a + 1) (v.extractLsb' 16 8)).writeByte
    (a + 2) (v.extractLsb' 8 8)).writeByte (a + 3) (v.extractLsb' 0 8)

/-- The canonical form: addresses strictly rising and inside the 32-bit address space. -/
def Memory.wf : Memory → Bool
  | [] => true
  | [(k, _)] => decide (k < 2 ^ 32)
  | (k, _) :: (l, v) :: m => decide (k < l) && Memory.wf ((l, v) :: m)

end Sys2Proof.Machine
end

