-- ==== Sys2Proof/Machine/ResetValues.lean ====
section
/-!
DEFINITION. The reset values that depend on the parameters (10_state.md R26 to R28, 60_exceptions.md R226).
-/
namespace Sys2Proof.Machine

/-- XPAN after reset: `WIDTH div 2` (10_state.md R26). -/
def xpanReset (p : Params) : Word := BitVec.ofNat 32 (p.width / 2)

/-- YPAN after reset: `HEIGHT div 2` (10_state.md R27). -/
def ypanReset (p : Params) : Word := BitVec.ofNat 32 (p.height / 2)

/-- pi to 20 decimals is piDigits / piUnit. DEDUCED, log entry 26. -/
def piDigits : Nat := 314159265358979323846

/-- 10 to the power 20 (log entry 26). -/
def piUnit : Nat := 100000000000000000000

/-- SCALEMUL after reset: `trunc((HEIGHT div 2) * pi)` (10_state.md R28), with pi to 20 decimals, which gives the
integer part exactly for every HEIGHT of 00_scope.md R6. DEDUCED, log entry 26. -/
def scalemulReset (p : Params) : Word := BitVec.ofNat 32 (p.height / 2 * piDigits / piUnit)

/-- The host's exact n / 2 (60_exceptions.md R226: pan = screen centre). -/
def hostHalf (n : Nat) : HostFloat := ⟨n, 2⟩

/-- The integer part of a float value, rounding toward zero (60_exceptions.md R230). -/
def hostTrunc (a : HostFloat) : Int := a.num.tdiv a.den

/-- The host's (HEIGHT/2) * pi before rounding (60_exceptions.md R226; log entry 26). -/
def hostScaleExact (height : Nat) : HostFloat := ⟨(height * piDigits : Nat), 2 * piUnit⟩

/-- The host format's value of (HEIGHT/2) * pi (60_exceptions.md R226): the rounding of the product. R230 says that for
an even HEIGHT its integer part is SCALEMUL's reset value, so a rounding that would change that integer part is none
of HOST_FLOAT's. DEDUCED, log entry 35. -/
def hostScaleReset (height : Nat) : HostFloat :=
  let rounded := Config.hostRound (hostScaleExact height)
  if height % 2 = 1 ∨ hostTrunc rounded = hostTrunc (hostScaleExact height) then rounded else hostScaleExact height

end Sys2Proof.Machine
end

