-- ==== Sys2Proof/Machine/State.lean ====
section
/-!
DEFINITION. The machine's state as plain data (10_state.md), its faults and refusals, and the state after reset
(70_reset_and_hazards.md R240).
-/
namespace Sys2Proof.Machine

/-- The codes of STATUS.ERRCODE (60_exceptions.md R201). -/
inductive ErrCode where
  /-- 0, no rejection since ERR was last cleared -/
  | noError
  /-- 1, a CMD write whose OP field is 0x0A to 0xFF -/
  | illegalOpcode
  /-- 2, a CMD write with a legal OP and a non-zero field that must be zero -/
  | reservedField
  /-- 3, a write to CMD or to a writable parameter register while BUSY = 1 -/
  | busyReject
  deriving DecidableEq, Repr

/-- The datapath registers of a frame being rendered (10_state.md R44), with the pseudocode's `bank`
(42_curve_engine.md R147). -/
structure FrameRegs where
  bank : Bank
  /-- the two phase accumulators -/
  ip1 : Word
  ip2 : Word
  /-- the point state of the current slot -/
  ix : Word
  iy : Word
  /-- slot counter, 0..64 -/
  k : BitVec 7
  /-- iteration counter, 0..1024 -/
  j : BitVec 11
  /-- GROM read index, 0..65536 -/
  g : BitVec 17
  deriving DecidableEq, Repr

/-- A plot between its read and its write (43_compositor.md R163; 20_memory.md R67: two accesses). -/
structure PlotAccess where
  addr : Word
  px : Word
  color : Color
  /-- the word read -/
  w : Word
  deriving DecidableEq, Repr

/-- How far the engine is in the pseudocode of the running command (10_state.md R43, R44). The constructors
`clearing` and `rendering` are DRAW's `stage`. -/
inductive Progress where
  /-- accepted, nothing performed yet -/
  | start
  /-- the next clear write is word `c` of the bank (43_compositor.md R164) -/
  | clearing (bank : Bank) (c : Word)
  /-- the next point is point (k, j) (42_curve_engine.md R143) -/
  | rendering (f : FrameRegs)
  /-- a point of the frame has been read for and waits for its write; `f` is the frame after the point -/
  | plotting (f : FrameRegs) (p : PlotAccess)
  /-- PLOT has read its word and waits for its write -/
  | writing (p : PlotAccess)
  /-- every access of PLOT is performed; the completing step is left -/
  | finish
  deriving DecidableEq, Repr

/-- The sequencer state (10_state.md R43). The accepted command word is held decoded (log entry 17). -/
inductive Seq where
  | idle
  | busy (cmd : Instr) (progress : Progress)
  deriving DecidableEq, Repr

/-- The width of a host access. -/
inductive Size where
  | byte | half | word
  deriving DecidableEq, Repr

/-- The host's inputs of one frame (60_exceptions.md R222 to R228): held inputs, press edges, and whether the reset
chord is detected. Which keys these are is HOST_BINDINGS, outside the model. -/
structure HostInput where
  left : Bool
  right : Bool
  up : Bool
  down : Bool
  zoomIn : Bool
  zoomOut : Bool
  speedUp : Bool
  slowDown : Bool
  chord : Bool
  freeze : Bool
  trails : Bool
  deriving DecidableEq, Repr

/-- One coming action of an agent (60_exceptions.md R216), or a turn left to the engine (log entry 1). -/
inductive Event where
  /-- the engine takes one step before the host's next action -/
  | engine
  /-- host register write of `v` at a window offset -/
  | write (off : Byte) (size : Size) (v : Word)
  /-- host register read at a window offset -/
  | read (off : Byte) (size : Size)
  /-- an aligned 32-bit host register write in the same step as an engine step (60_exceptions.md R208) -/
  | writeWithEngine (off : Byte) (v : Word)
  /-- `SYNC <command>`: the host writes `w` to CMD and then only polls STATUS until BUSY = 0 (30_encoding.md R91) -/
  | sync (w : Word)
  /-- `WAIT`: the host polls STATUS until BUSY = 0 (30_encoding.md R91); what its polls returned is not kept (log
  entry 11) -/
  | wait
  /-- host store to system memory -/
  | store (addr : Word) (size : Size) (v : Word)
  /-- host load from system memory -/
  | load (addr : Word) (size : Size)
  /-- one step with `rst` asserted (70_reset_and_hazards.md R240) -/
  | rst
  /-- the host's Transform State update of one frame, with its register writes right after it (60_exceptions.md R221;
  log entry 34) -/
  | hostFrame (inp : HostInput)
  deriving DecidableEq, Repr

/-- The host's Transform State (60_exceptions.md R220); t is held in PHASE. -/
structure HostCtl where
  panX : HostFloat
  panY : HostFloat
  scale : HostFloat
  speed : Int
  trails : Bool
  justReset : Bool
  savedSpeed : Int
  deriving DecidableEq, Repr

/-- The whole machine (10_state.md), with the agents around it. -/
structure State where
  /-- STATUS.DONE (R22) -/
  done : Bool
  /-- STATUS.ERR (R22) -/
  err : Bool
  /-- STATUS.ERRCODE (R22) -/
  errcode : ErrCode
  /-- STATUS.ACTIVE (R22) -/
  active : Bank
  /-- STATUS.PRESENTED (R22) -/
  presented : Bank
  /-- CTRL.TRAILS (R23) -/
  trails : Bool
  /-- CTRL.IRQ_EN (R23) -/
  irqEn : Bool
  /-- PHASE (R24) -/
  phase : Word
  /-- SPEED (R25) -/
  speed : Word
  /-- XPAN (R26) -/
  xpan : Word
  /-- YPAN (R27) -/
  ypan : Word
  /-- SCALEMUL (R28) -/
  scalemul : Word
  /-- PT_X (R31) -/
  ptX : Word
  /-- PT_Y (R32) -/
  ptY : Word
  /-- PT_COLOR bits 23:0 (R33) -/
  ptColor : Color
  /-- LOOKUP (R34) -/
  lookup : Word
  /-- P1 (R35) -/
  p1 : Word
  /-- P2 (R36) -/
  p2 : Word
  /-- FB0_BASE bits 31:2 (R37) -/
  fb0 : BitVec 30
  /-- FB1_BASE bits 31:2 (R38) -/
  fb1 : BitVec 30
  /-- the sequencer and the datapath (R43, R44) -/
  seq : Seq
  /-- system memory with the two banks (R48) -/
  mem : Memory
  /-- WIDTH, HEIGHT (R29, R30), BG_WORD, QUARTER (00_scope.md R6 to R8): constant -/
  params : Params
  /-- the model's own: the coming actions of the other agents, in order (log entry 1) -/
  pending : List Event
  /-- the model's own: what the host's last read or load of its own returned; the polls inside WAIT and SYNC are not
  recorded (log entry 11) -/
  busData : Word
  /-- the host's Transform State (60_exceptions.md R220) -/
  host : HostCtl
  deriving DecidableEq, Repr

/-- The block raises no exception and no trap (60_exceptions.md R200, R209), and the spec names no address that does
not exist (20_memory.md R70): nothing stops with a fault, so there is none. -/
inductive Fault where
  deriving DecidableEq, Repr

/-- The reasons a step has no meaning. -/
inductive Refusal where
  /-- raised by exec for a command without a meaning, naming it; safe. No arm raises it. -/
  | notModelled (mnemonic : String)
  /-- raised by a host register access that is not an aligned 32-bit one (10_state.md R40: "A model refuses any other
  access width or alignment"); safe -/
  | registerAccess
  deriving DecidableEq, Repr

/-- The host's Transform State at startup and after its reset chord (60_exceptions.md R226); savedSpeed and justReset
are not given there (log entry 20). -/
def HostCtl.initial (p : Params) : HostCtl where
  panX := hostHalf p.width
  panY := hostHalf p.height
  scale := hostScaleReset p.height
  speed := 8
  trails := false
  justReset := false
  savedSpeed := 0

/-- The state right after reset of a block with parameters `p` (70_reset_and_hazards.md R240, 10_state.md section 2),
with nothing in memory written and no agent about to act. -/
def State.resetWith (p : Params) : State where
  done := false
  err := false
  errcode := .noError
  active := 0
  presented := 1
  trails := false
  irqEn := false
  phase := 0
  speed := 8
  xpan := xpanReset p
  ypan := ypanReset p
  scalemul := scalemulReset p
  ptX := 0
  ptY := 0
  ptColor := 0
  lookup := 0
  p1 := 0
  p2 := 0
  fb0 := 0
  fb1 := 0
  seq := .idle
  mem := []
  params := p
  pending := []
  busData := 0
  host := HostCtl.initial p

/-- The machine right after reset. -/
def State.reset : State := State.resetWith Config.params

end Sys2Proof.Machine
end

