-- ==== Sys2Proof/Machine/Flags.lean ====
section
/-!
DEFINITION. The status and control words and the outputs computed from them (10_state.md R20, R22, R23;
60_exceptions.md R201, R206). The block has no other flags (10_state.md R49).
-/
namespace Sys2Proof.Machine

/-- STATUS.BUSY: `STATUS.BUSY = 1 exactly when seq = Busy` (10_state.md R43). -/
def State.isBusy (s : State) : Bool :=
  match s.seq with
  | .idle => false
  | .busy _ _ => true

/-- The two bits of STATUS.ERRCODE (60_exceptions.md R201). -/
def ErrCode.bits : ErrCode → BitVec 2
  | .noError => 0
  | .illegalOpcode => 1
  | .reservedField => 2
  | .busyReject => 3

/-- The error code of a word the decoder rejects (60_exceptions.md R202). -/
def errCodeOf : DecodeError → ErrCode
  | .illegalOpcode => .illegalOpcode
  | .reservedField => .reservedField

/-- STATUS as the host reads it (10_state.md R22): PRESENTED 9, ACTIVE 8, ERRCODE 5:4, ERR 2, DONE 1, BUSY 0, the
reserved bits 0. -/
def State.statusWord (s : State) : Word :=
  (0 : BitVec 22) ++ s.presented ++ s.active ++ (0 : BitVec 2) ++ s.errcode.bits ++ (0 : BitVec 1) ++
    BitVec.ofBool s.err ++ BitVec.ofBool s.done ++ BitVec.ofBool s.isBusy

/-- CTRL as the host reads it (10_state.md R23): IRQ_EN 1, TRAILS 0, the reserved bits 0. -/
def State.ctrlWord (s : State) : Word :=
  (0 : BitVec 30) ++ BitVec.ofBool s.irqEn ++ BitVec.ofBool s.trails

/-- The interrupt output (60_exceptions.md R206). -/
def State.irq (s : State) : Bool := s.irqEn && (s.done || s.err)

/-- FB0_BASE or FB1_BASE, bits 1:0 hardwired 0 (10_state.md R37, R38). -/
def State.fbBase (s : State) (b : Bank) : Word :=
  if b = 0 then s.fb0 ++ (0 : BitVec 2) else s.fb1 ++ (0 : BitVec 2)

/-- The output `present_bank` (10_state.md R20). -/
def State.presentBank (s : State) : Bank := s.presented

/-- The output `present_base` (10_state.md R20). -/
def State.presentBase (s : State) : Word := s.fbBase s.presentBank

end Sys2Proof.Machine
end

