-- ==== Sys2Proof/Machine/Ops.lean ====
section
/-!
DEFINITION. The named operations that the commands and the register window share: rejecting (60_exceptions.md R203),
acknowledging (R208), completing (10_state.md R45), submitting a command (R202), and reset (70_reset_and_hazards.md
R240, R241).
-/
namespace Sys2Proof.Machine

/-- `raise CmdError(code)`, the block's only exceptional event: ERR and ERRCODE, nothing else; it saves no state,
changes no mode and has no vector (60_exceptions.md R203, R209). -/
def State.reject (s : State) (code : ErrCode) : State := { s with err := true, errcode := code }

/-- A write of `v` to STATUS: clears DONE if v[1] = 1, clears ERR and ERRCODE if v[2] = 1, ignores every other bit
(10_state.md R22, 60_exceptions.md R208). -/
def State.ackStatus (s : State) (v : Word) : State :=
  { s with
    done := s.done && !v.getLsbD 1
    err := s.err && !v.getLsbD 2
    errcode := if v.getLsbD 2 then .noError else s.errcode }

/-- The completing step: DONE <- 1 and seq <- Idle (10_state.md R45, 60_exceptions.md R207). -/
def State.complete (s : State) : State := { s with done := true, seq := .idle }

/-- The same state with memory `m`. -/
def State.setMem (s : State) (m : Memory) : State := { s with mem := m }

/-- The same state with the sequencer at `q`. -/
def State.setSeq (s : State) (q : Seq) : State := { s with seq := q }

/-- A host that writes a command to CMD and waits for it: rejected with BUSY_REJECT while another command runs
(60_exceptions.md R202), otherwise accepted and run to its completing step with nothing in between (10_state.md R45;
R251 leaves the number of steps open; log entry 2). `effect` is everything the command does but completing. -/
def State.submit (s : State) (effect : State → State) : Host.Outcome State Fault Refusal :=
  if s.isBusy then .next (s.reject .busyReject) else .next (effect s).complete

/-- One step with `rst` asserted: every register at its reset value and seq Idle, in any state; memory keeps what the
abandoned command's accesses left (70_reset_and_hazards.md R240, R241). The other agents' own state stays (log entry
15). -/
def State.applyReset (s : State) : State :=
  { State.resetWith s.params with
    mem := s.mem
    pending := s.pending
    busData := s.busData
    host := s.host }

end Sys2Proof.Machine
end

