-- ==== Sys2Proof/Machine/Roms.lean ====
section
/-!
DEFINITION. The contents of the two ROMs: WROM as a function of QUARTER (40_waveform_rom.md R101 to R105), GROM by
the channel formulas (41_gradient_rom.md R120 to R125). Nothing writes either (70_reset_and_hazards.md R250).
-/
namespace Sys2Proof.Machine

/-- N, the number of WROM words (00_scope.md R5). -/
abbrev waveSize : Nat := 16384

/-- `v & MASK` as a WROM index: v mod 16384 (40_waveform_rom.md R105). -/
def wromIndex (v : Word) : Nat := (v &&& 0x3FFF).toNat

/-- QUARTER[r] as a 16-bit sample (40_waveform_rom.md R100). -/
def quarterSample (quarter : List (BitVec 15)) (r : Nat) : Half := (quarter.getD r 0).setWidth 16

/-- A(i), the full-period sample at index i: quarter-wave expansion (40_waveform_rom.md R101). -/
def waveSample (quarter : List (BitVec 15)) (i : Nat) : Half :=
  let r := i % 4096
  match i / 4096 % 4 with
  | 0 => quarterSample quarter r
  | 1 => quarterSample quarter (4095 - r)
  | 2 => 0 - quarterSample quarter r
  | _ => 0 - quarterSample quarter (4095 - r)

/-- WROM[i]: A(i) in the high half, the sample a quarter period ahead in the low half (40_waveform_rom.md R103). -/
def wromWord (quarter : List (BitVec 15)) (i : Nat) : Word :=
  waveSample quarter (i % waveSize) ++ waveSample quarter ((i + 4096) % waveSize)

/-- `highHalf(w)`, sign-extended (40_waveform_rom.md R104). -/
def highHalf (w : Word) : Word := (w.extractLsb' 16 16).signExtend 32

/-- `lowHalf(w)`, sign-extended (40_waveform_rom.md R104). -/
def lowHalf (w : Word) : Word := (w.extractLsb' 0 16).signExtend 32

/-- Channel R of slot k: the raw slot s = 4 * k (41_gradient_rom.md R120, R121). -/
def gradR (k : Nat) : Nat := 256 * (4 * k) / 256

/-- Channel G of iteration j (41_gradient_rom.md R122). -/
def gradG (j : Nat) : Nat := (256 * 2 ^ 20 - 256 * (1024 - j) ^ 2) / 2 ^ 20

/-- Channel B (41_gradient_rom.md R123). -/
def gradB (r g : Nat) : Nat := (512 - (r + g)) / 2

/-- Y (41_gradient_rom.md R124); `/` on Int with a positive divisor is floor. -/
def gradY (r g b : Nat) : Int := 16 + (257 * r + 504 * g + 98 * b : Int) / 1000

/-- U (41_gradient_rom.md R124). -/
def gradU (r g b : Nat) : Int := 128 + (-148 * r - 291 * g + 439 * b : Int) / 1000

/-- V (41_gradient_rom.md R124). -/
def gradV (r g b : Nat) : Int := 128 + (439 * r - 368 * g - 71 * b : Int) / 1000

/-- A packed colour: Y in bits 23:16, U in 15:8, V in 7:0 (41_gradient_rom.md R125). -/
def packColor (y u v : Int) : Color := BitVec.ofInt 8 y ++ BitVec.ofInt 8 u ++ BitVec.ofInt 8 v

/-- GROM[g], k = g[15:10], j = g[9:0] (41_gradient_rom.md R120 to R125). -/
def gromEntry (g : Nat) : Color :=
  let k := g / 1024 % 64
  let j := g % 1024
  let r := gradR k
  let gr := gradG j
  let b := gradB r gr
  packColor (gradY r gr b) (gradU r gr b) (gradV r gr b)

end Sys2Proof.Machine
end

