-- ==== Sys2Proof/Machine/Operands.lean ====
section
/-!
DEFINITION. How commands reach their operands: command fields (30_encoding.md R82 to R84), frame-buffer addresses
(20_memory.md R61, R65), the transform and the bounds check (43_compositor.md R160, R161), the macro-pixel fields
(20_memory.md R65).
-/
namespace Sys2Proof.Machine

/-- The bank an operand names (30_encoding.md R84). -/
def bankOf (b : Nat) : Bank := BitVec.ofNat 1 b

/-- The number of words of a bank: `(WIDTH/2) * HEIGHT` (20_memory.md R61). -/
def wordCount (p : Params) : Nat := p.width / 2 * p.height

/-- The address of word `c` of bank `b` (43_compositor.md R164). -/
def State.bankWordAddr (s : State) (b : Bank) (c : Nat) : Word := s.fbBase b + BitVec.ofNat 32 (4 * c)

/-- `FBAddr(b, px, py)` (20_memory.md R65). -/
def State.fbAddr (s : State) (b : Bank) (px py : Nat) : Word :=
  s.bankWordAddr b (py * (s.params.width / 2) + px / 2)

/-- `Xform(v, pan)`: the product wraps, the shift by SINTABLEPOWER = 14 is arithmetic, the pan is added after it
(43_compositor.md R160). -/
def State.xform (s : State) (v pan : Word) : Word := (v * s.scalemul).sshiftRight 14 + pan

/-- `0 <= px < WIDTH and 0 <= py < HEIGHT`, as signed integers (43_compositor.md R161). -/
def State.inBounds (s : State) (px py : Word) : Bool :=
  decide (0 ≤ px.toInt ∧ px.toInt < s.params.width ∧ 0 ≤ py.toInt ∧ py.toInt < s.params.height)

/-- Where a point is plotted: the address of its word and its pixel column, or nothing for a point out of bounds
(43_compositor.md R163). -/
def State.plotTarget (s : State) (bank : Bank) (x y : Word) : Option (Word × Word) :=
  let px := s.xform x s.xpan
  let py := s.xform y s.ypan
  if s.inBounds px py then some (s.fbAddr bank px.toNat py.toNat, px) else none

/-- Luma of the even pixel of a macro-pixel word (20_memory.md R65). -/
def lumaEven (w : Word) : Byte := w.extractLsb' 24 8

/-- Chroma U of a macro-pixel word (20_memory.md R65). -/
def chromaU (w : Word) : Byte := w.extractLsb' 16 8

/-- Luma of the odd pixel of a macro-pixel word (20_memory.md R65). -/
def lumaOdd (w : Word) : Byte := w.extractLsb' 8 8

/-- Chroma V of a macro-pixel word (20_memory.md R65). -/
def chromaV (w : Word) : Byte := w.extractLsb' 0 8

/-- The luma of a colour (43_compositor.md R162: Y in c[23:16]). -/
def colorY (c : Color) : Byte := c.extractLsb' 16 8

/-- The U of a colour (43_compositor.md R162: U in c[15:8]). -/
def colorU (c : Color) : Byte := c.extractLsb' 8 8

/-- The V of a colour (43_compositor.md R162: V in c[7:0]). -/
def colorV (c : Color) : Byte := c.extractLsb' 0 8

/-- What the display reads for pixel column `px`, row `py` of the presented bank (20_memory.md R75). -/
def State.displayWord (s : State) (px py : Nat) : Word := s.mem.readWord (s.fbAddr s.presentBank px py)

end Sys2Proof.Machine
end

