-- ==== Sys2Proof/Machine/Window.lean ====
section
/-!
DEFINITION. The host register window (10_state.md sections 2 and 3): what a read returns and what a write does, and
acceptance of a command word (60_exceptions.md R202).
-/
namespace Sys2Proof.Machine

/-- The registers of the window (10_state.md section 2). -/
inductive Reg where
  | cmd | status | ctrl | phase | speed | xpan | ypan | scalemul | width | height | ptX | ptY | ptColor | lookup
  | p1 | p2 | fb0Base | fb1Base | reserved
  deriving DecidableEq, Repr

/-- The register at an aligned offset (10_state.md section 2); 0x48 to 0xFC are reserved (R39). -/
def regAt (off : Byte) : Reg :=
  match off.toNat / 4 with
  | 0 => .cmd
  | 1 => .status
  | 2 => .ctrl
  | 3 => .phase
  | 4 => .speed
  | 5 => .xpan
  | 6 => .ypan
  | 7 => .scalemul
  | 8 => .width
  | 9 => .height
  | 10 => .ptX
  | 11 => .ptY
  | 12 => .ptColor
  | 13 => .lookup
  | 14 => .p1
  | 15 => .p2
  | 16 => .fb0Base
  | 17 => .fb1Base
  | _ => .reserved

/-- "The register window accepts only naturally aligned 32-bit reads and writes" (10_state.md R40). -/
def windowAccepts (off : Byte) (size : Size) : Bool := decide (size = .word) && decide (off.toNat % 4 = 0)

/-- What a read returns: the current value, with no effect (10_state.md R21 to R39, R42). -/
def State.readReg (s : State) : Reg → Word
  | .cmd => 0
  | .status => s.statusWord
  | .ctrl => s.ctrlWord
  | .phase => s.phase
  | .speed => s.speed
  | .xpan => s.xpan
  | .ypan => s.ypan
  | .scalemul => s.scalemul
  | .width => BitVec.ofNat 32 s.params.width
  | .height => BitVec.ofNat 32 s.params.height
  | .ptX => s.ptX
  | .ptY => s.ptY
  | .ptColor => s.ptColor.setWidth 32
  | .lookup => s.lookup
  | .p1 => s.p1
  | .p2 => s.p2
  | .fb0Base => s.fbBase 0
  | .fb1Base => s.fbBase 1
  | .reserved => 0

/-- A CMD write while no command runs (60_exceptions.md R202): rejected by the decoder's reason, or accepted: seq
becomes Busy (10_state.md R45). -/
def State.acceptWord (s : State) (w : Word) : State :=
  match decode w with
  | .error e => s.reject (errCodeOf e)
  | .ok i => s.setSeq (.busy i .start)

/-- A write to a register while no command runs (10_state.md R21 to R39): hardwired and reserved bits are dropped,
read-only registers and reserved offsets ignore it. -/
def State.storeReg (s : State) (r : Reg) (v : Word) : State :=
  match r with
  | .cmd => s.acceptWord v
  | .status => s.ackStatus v
  | .ctrl => { s with trails := v.getLsbD 0, irqEn := v.getLsbD 1 }
  | .phase => { s with phase := v }
  | .speed => { s with speed := v }
  | .xpan => { s with xpan := v }
  | .ypan => { s with ypan := v }
  | .scalemul => { s with scalemul := v }
  | .width => s
  | .height => s
  | .ptX => { s with ptX := v }
  | .ptY => { s with ptY := v }
  | .ptColor => { s with ptColor := v.extractLsb' 0 24 }
  | .lookup => s
  | .p1 => { s with p1 := v }
  | .p2 => { s with p2 := v }
  | .fb0Base => { s with fb0 := v.extractLsb' 2 30 }
  | .fb1Base => { s with fb1 := v.extractLsb' 2 30 }
  | .reserved => s

/-- The registers a running command protects: CMD and the writable parameter registers (10_state.md R41). -/
def Reg.guarded : Reg → Bool
  | .status => false
  | .width => false
  | .height => false
  | .lookup => false
  | .reserved => false
  | .cmd => true
  | .ctrl => true
  | .phase => true
  | .speed => true
  | .xpan => true
  | .ypan => true
  | .scalemul => true
  | .ptX => true
  | .ptY => true
  | .ptColor => true
  | .p1 => true
  | .p2 => true
  | .fb0Base => true
  | .fb1Base => true

/-- A host register write (10_state.md R41, 60_exceptions.md R216). -/
def State.writeReg (s : State) (r : Reg) (v : Word) : State :=
  if s.isBusy && r.guarded then s.reject .busyReject else s.storeReg r v

end Sys2Proof.Machine
end

