-- ==== Sys2Proof/Machine/Controller.lean ====
section
/-!
DEFINITION. The host reference model of the Transform State update (60_exceptions.md R220 to R233), the host's frame
sequence (44_frame_control.md R185) and its boot sequence (70_reset_and_hazards.md R244). Host software, not hardware
of the block (00_scope.md R4).
-/
namespace Sys2Proof.Machine

/-- The exact sum of two float values. -/
def hostAdd (a b : HostFloat) : HostFloat := ⟨a.num * b.den + b.num * a.den, a.den * b.den⟩

/-- The exact difference. -/
def hostSub (a b : HostFloat) : HostFloat := ⟨a.num * b.den - b.num * a.den, a.den * b.den⟩

/-- The exact product. -/
def hostMul (a b : HostFloat) : HostFloat := ⟨a.num * b.num, a.den * b.den⟩

/-- The exact quotient. -/
def hostDiv (a b : HostFloat) : HostFloat := ⟨a.num * b.den * b.num.sign, a.den * b.num.natAbs⟩

/-- The accumulator after one frame of a direction's input (60_exceptions.md R222). -/
def panStep (held : Bool) (d : PanDir) (acc : HostFloat) : HostFloat :=
  if held then Config.hostRound (hostAdd acc (Config.hostPanStep d)) else acc

/-- Directional pan (60_exceptions.md R222). -/
def hostPan (inp : HostInput) (h : HostCtl) : HostCtl :=
  { h with
    panX := panStep inp.right .right (panStep inp.left .left h.panX)
    panY := panStep inp.down .down (panStep inp.up .up h.panY) }

/-- A value scaled by a zoom step: multiplied by the ratio or divided by it; HOST_ZOOM says which input does which
(60_exceptions.md R223; log entry 19). -/
def zoomBy (zoomIn : Bool) (v : HostFloat) : HostFloat :=
  Config.hostRound
    (if zoomIn = Config.hostZoomInMultiplies then hostMul v Config.hostZoomRatio else hostDiv v Config.hostZoomRatio)

/-- A pan accumulator scaled as the scale is, about the screen centre or about the origin; HOST_ZOOM says which
(60_exceptions.md R223; log entry 19). -/
def zoomPan (zoomIn : Bool) (centre pan : HostFloat) : HostFloat :=
  if Config.hostZoomAboutCentre then
    Config.hostRound (hostAdd centre (zoomBy zoomIn (Config.hostRound (hostSub pan centre))))
  else zoomBy zoomIn pan

/-- One zoom step: "pan and zoom multiplicatively (one shrinks, one grows) by a fixed per-frame ratio"
(60_exceptions.md R223). -/
def zoomStep (p : Params) (held zoomIn : Bool) (h : HostCtl) : HostCtl :=
  if held then
    { h with
      scale := zoomBy zoomIn h.scale
      panX := zoomPan zoomIn (hostHalf p.width) h.panX
      panY := zoomPan zoomIn (hostHalf p.height) h.panY }
  else h

/-- Zoom (60_exceptions.md R223). -/
def hostZoom (p : Params) (inp : HostInput) (h : HostCtl) : HostCtl :=
  zoomStep p inp.zoomOut false (zoomStep p inp.zoomIn true h)

/-- Speed adjust, on press edges (60_exceptions.md R224). -/
def hostSpeed (inp : HostInput) (h : HostCtl) : HostCtl :=
  { h with speed := h.speed + (if inp.speedUp then 1 else 0) - (if inp.slowDown then 1 else 0) }

/-- Reset chord (60_exceptions.md R225, R226): the initial state, savedSpeed unchanged, justReset set. -/
def hostChord (p : Params) (inp : HostInput) (h : HostCtl) : HostCtl :=
  if inp.chord then { HostCtl.initial p with savedSpeed := h.savedSpeed, justReset := true } else h

/-- Freeze toggle, unless suppressed by justReset (60_exceptions.md R227, R229). -/
def hostFreeze (inp : HostInput) (h : HostCtl) : HostCtl :=
  if inp.freeze && !h.justReset then
    if h.speed ≠ 0 then { h with savedSpeed := h.speed, speed := 0 } else { h with speed := h.savedSpeed }
  else h

/-- Trails toggle, unless suppressed by justReset (60_exceptions.md R228, R229). -/
def hostTrails (inp : HostInput) (h : HostCtl) : HostCtl :=
  if inp.trails && !h.justReset then { h with trails := !h.trails } else h

/-- One frame's update, each transition once, in the order of 60_exceptions.md R221; justReset is cleared first
(R229, the default of HOST_DEBOUNCE; log entry 33). -/
def hostUpdate (p : Params) (inp : HostInput) (h : HostCtl) : HostCtl :=
  hostTrails inp (hostFreeze inp (hostChord p inp (hostSpeed inp (hostZoom p inp (hostPan inp
    { h with justReset := false })))))

/-- The host writes the derived integer fields while BUSY = 0 (60_exceptions.md R230); IRQ_EN keeps its value. -/
def hostWrites (irqEn : Bool) (h : HostCtl) : List Event :=
  [.wait,
   .write 0x14 .word (BitVec.ofInt 32 (hostTrunc h.panX)),
   .write 0x18 .word (BitVec.ofInt 32 (hostTrunc h.panY)),
   .write 0x1C .word (BitVec.ofInt 32 (hostTrunc h.scale)),
   .write 0x10 .word (BitVec.ofInt 32 h.speed),
   .write 0x08 .word ((0 : BitVec 30) ++ BitVec.ofBool irqEn ++ BitVec.ofBool h.trails)]

/-- The host's part of a frame (60_exceptions.md R221): the update, then the writes, before anything else the host
does. DESIGN CHOICE: nothing of the pending list, rst included, comes between the update and its writes (log entry
34). -/
def State.hostFrame (s : State) (inp : HostInput) : State :=
  let h := hostUpdate s.params inp s.host
  { s with host := h, pending := hostWrites s.irqEn h ++ s.pending }

/-- `ACK` (30_encoding.md R91). -/
def ackEvent : Event := .write 0x04 .word 0x00000006

/-- `SYNC <command>` (30_encoding.md R91). -/
def syncEvent (i : Instr) : Event := .sync (encode i)

/-- One turn of the frame loop (44_frame_control.md R185); the wait for vertical sync is the display's and changes
nothing of the block (60_exceptions.md R218). -/
def frameEvents (inp : HostInput) : List Event :=
  [syncEvent .draw, syncEvent .present, .hostFrame inp, syncEvent .advance]

/-- Steps 2 and 4 of the boot sequence (70_reset_and_hazards.md R244). -/
def bootEvents (buffer0 buffer1 : Word) : List Event :=
  [.write 0x40 .word buffer0, .write 0x44 .word buffer1, syncEvent (.clear 0), syncEvent (.clear 1)]

end Sys2Proof.Machine
end

