-- ==== Sys2Proof/Machine/Compositor.lean ====
section
/-!
DEFINITION. The pixel packer and compositor (43_compositor.md): Pack, Plot, ClearBank, and the commands CLEAR and
PLOT.
-/
namespace Sys2Proof.Machine

/-- A point and its colour (42_curve_engine.md R144). -/
structure Point where
  x : Word
  y : Word
  color : Color
  deriving DecidableEq, Repr

/-- `Pack(w, px, c)`: an even column writes Y0 and keeps Y1, an odd one writes Y1 and keeps Y0; U and V are the new
colour's (43_compositor.md R162). -/
def pack (w px : Word) (c : Color) : Word :=
  if px.getLsbD 0 = false then colorY c ++ colorU c ++ lumaOdd w ++ colorV c
  else lumaEven w ++ colorU c ++ colorY c ++ colorV c

/-- `Plot(bank, x, y, c)` on memory: the read, then the write; nothing for a point out of bounds (43_compositor.md
R163). -/
def State.plotPoint (s : State) (bank : Bank) (m : Memory) (pt : Point) : Memory :=
  match s.plotTarget bank pt.x pt.y with
  | none => m
  | some (addr, px) => m.writeWord addr (pack (m.readWord addr) px pt.color)

/-- The clear writes of words c, c + 1, ..., c + n - 1 of a bank, ascending (43_compositor.md R164). -/
def State.clearWords (s : State) (bank : Bank) : (n c : Nat) → Memory → Memory
  | 0, _, m => m
  | n + 1, c, m => s.clearWords bank n (c + 1) (m.writeWord (s.bankWordAddr bank c) s.params.bgWord)

/-- `ClearBank(b)` (43_compositor.md R164). -/
def State.clearBank (s : State) (bank : Bank) (m : Memory) : Memory :=
  s.clearWords bank (wordCount s.params) 0 m

/-- CLEAR b (43_compositor.md R165). -/
def execClear (b : Nat) (s : State) : Host.Outcome State Fault Refusal :=
  s.submit fun s => s.setMem (s.clearBank (bankOf b) s.mem)

/-- PLOT (43_compositor.md R166). -/
def execPlot (s : State) : Host.Outcome State Fault Refusal :=
  s.submit fun s => s.setMem (s.plotPoint s.active s.mem ⟨s.ptX, s.ptY, s.ptColor⟩)

end Sys2Proof.Machine
end

