-- ==== Sys2Proof/Machine/Curve.lean ====
section
/-!
DEFINITION. The curve recurrence engine (42_curve_engine.md): the step function, the traversal of a frame, and the
commands CSTEP and RENDER.
-/
namespace Sys2Proof.Machine

/-- Slots per frame (00_scope.md R5). -/
abbrev slots : Nat := 64

/-- Iterations per slot (00_scope.md R5). -/
abbrev iterations : Nat := 1024

/-- ANG1INC (00_scope.md R5). -/
abbrev ang1inc : Word := 278

/-- ANG2INC (00_scope.md R5). -/
abbrev ang2inc : Word := 10430

/-- `CurveStep(p1, p2, x, y)`: both lookups use the old x and y (42_curve_engine.md R141). -/
def curveStep (quarter : List (BitVec 15)) (p1 p2 x y : Word) : Word × Word :=
  let a := wromWord quarter (wromIndex (p1 + x))
  let b := wromWord quarter (wromIndex (p2 + y))
  (lowHalf a + lowHalf b, highHalf a + highHalf b)

/-- The next `n` points of a slot whose point state is (x, y), paired with the GROM entries from `g` on
(42_curve_engine.md R143, R144). -/
def slotPoints (quarter : List (BitVec 15)) (ip1 ip2 : Word) : (n g : Nat) → (x y : Word) → List Point
  | 0, _, _, _ => []
  | n + 1, g, x, y =>
    let p := curveStep quarter ip1 ip2 x y
    ⟨p.1, p.2, gromEntry g⟩ :: slotPoints quarter ip1 ip2 n (g + 1) p.1 p.2

/-- The points of `n` slots from slot k on, whose accumulators are ip1 and ip2; each slot starts at (0, 0)
(42_curve_engine.md R143). -/
def slotsFrom (quarter : List (BitVec 15)) : (n k : Nat) → (ip1 ip2 : Word) → List Point
  | 0, _, _, _ => []
  | n + 1, k, ip1, ip2 =>
    slotPoints quarter ip1 ip2 iterations (k * iterations) 0 0 ++
      slotsFrom quarter n (k + 1) (ip1 + ang1inc) (ip2 + ang2inc)

/-- The points of a frame with Animation Phase t, in order of emission (42_curve_engine.md R143, R144). Irreducible, so
that elaboration does not unroll 65536 points; unfold it by name. -/
@[irreducible] def framePoints (quarter : List (BitVec 15)) (t : Word) : List Point := slotsFrom quarter slots 0 t t

/-- RENDER's pseudocode on memory: every point of the frame plotted in order (42_curve_engine.md R145, R147). -/
def State.renderBank (s : State) (bank : Bank) (m : Memory) : Memory :=
  (framePoints s.params.quarter s.phase).foldl (s.plotPoint bank) m

/-- CSTEP (42_curve_engine.md R146). -/
def execCstep (s : State) : Host.Outcome State Fault Refusal :=
  s.submit fun s =>
    let p := curveStep s.params.quarter s.p1 s.p2 s.ptX s.ptY
    { s with ptX := p.1, ptY := p.2 }

/-- RENDER (42_curve_engine.md R147). -/
def execRender (s : State) : Host.Outcome State Fault Refusal :=
  s.submit fun s => s.setMem (s.renderBank s.active s.mem)

end Sys2Proof.Machine
end

