-- ==== Sys2Proof/Machine/FrameControl.lean ====
section
/-!
DEFINITION. The frame control commands NOP, DRAW, PRESENT, ADVANCE (44_frame_control.md).
-/
namespace Sys2Proof.Machine

/-- NOP (44_frame_control.md R180). -/
def execNop (s : State) : Host.Outcome State Fault Refusal := s.submit fun s => s

/-- DRAW's pseudocode on memory: the clear unless TRAILS, then RENDER's (44_frame_control.md R181). -/
def State.drawBank (s : State) (bank : Bank) (m : Memory) : Memory :=
  s.renderBank bank (if s.trails then m else s.clearBank bank m)

/-- DRAW (44_frame_control.md R181). -/
def execDraw (s : State) : Host.Outcome State Fault Refusal :=
  s.submit fun s => s.setMem (s.drawBank s.active s.mem)

/-- PRESENT: PRESENTED <- ACTIVE, and ACTIVE <- 1 - ACTIVE unless TRAILS (44_frame_control.md R182). -/
def execPresent (s : State) : Host.Outcome State Fault Refusal :=
  s.submit fun s => { s with presented := s.active, active := if s.trails then s.active else 1 - s.active }

/-- ADVANCE: `reg[PHASE] <- reg[PHASE] +32 reg[SPEED]` (44_frame_control.md R183). -/
def execAdvance (s : State) : Host.Outcome State Fault Refusal :=
  s.submit fun s => { s with phase := s.phase + s.speed }

end Sys2Proof.Machine
end

