-- ==== Sys2Proof/Machine/Lookup.lean ====
section
/-!
DEFINITION. The table reads WLOOKUP (40_waveform_rom.md R108) and GLOOKUP (41_gradient_rom.md R127).
-/
namespace Sys2Proof.Machine

/-- `reg[LOOKUP] <- WROM[idx]` (40_waveform_rom.md R108). -/
def execWlookup (idx : Nat) (s : State) : Host.Outcome State Fault Refusal :=
  s.submit fun s => { s with lookup := wromWord s.params.quarter idx }

/-- `reg[LOOKUP] <- zext_32(GROM[gidx])` (41_gradient_rom.md R127). -/
def execGlookup (gidx : Nat) (s : State) : Host.Outcome State Fault Refusal :=
  s.submit fun s => { s with lookup := (gromEntry gidx).setWidth 32 }

end Sys2Proof.Machine
end

