-- ==== Sys2Proof/Machine/Dispatch.lean ====
section
/-!
DEFINITION. The meaning of every command, one arm per constructor of Instr.
-/
namespace Sys2Proof.Machine

def exec (i : Instr) (s : State) : Host.Outcome State Fault Refusal :=
  match i with
  -- 44_frame_control.md
  | .nop => Sys2Proof.Machine.execNop s
  -- 43_compositor.md
  | .clear b => Sys2Proof.Machine.execClear b s
  -- 42_curve_engine.md
  | .render => Sys2Proof.Machine.execRender s
  -- 44_frame_control.md
  | .present => Sys2Proof.Machine.execPresent s
  | .advance => Sys2Proof.Machine.execAdvance s
  | .draw => Sys2Proof.Machine.execDraw s
  -- 43_compositor.md
  | .plot => Sys2Proof.Machine.execPlot s
  -- 40_waveform_rom.md, 41_gradient_rom.md
  | .wlookup idx => Sys2Proof.Machine.execWlookup idx s
  | .glookup gidx => Sys2Proof.Machine.execGlookup gidx s
  -- 42_curve_engine.md
  | .cstep => Sys2Proof.Machine.execCstep s

end Sys2Proof.Machine
end

