-- ==== Sys2Proof/Machine/Engine.lean ====
section
/-!
DEFINITION. The engine, one step at a time (10_state.md R43 to R45): at most one memory access a step, in the order of
the running command's pseudocode (20_memory.md R67, R71), and the completing step after the last access (R72).
-/
namespace Sys2Proof.Machine

/-- The frame registers before slot 0: both accumulators at the Animation Phase (42_curve_engine.md R143). -/
def frameStart (bank : Bank) (t : Word) : FrameRegs :=
  { bank := bank, ip1 := t, ip2 := t, ix := 0, iy := 0, k := 0, j := 0, g := 0 }

/-- After a slot's full loop: the accumulators advance, the point state returns to (0, 0) (42_curve_engine.md
R143). -/
def FrameRegs.nextSlot (f : FrameRegs) : FrameRegs :=
  { f with ip1 := f.ip1 + ang1inc, ip2 := f.ip2 + ang2inc, ix := 0, iy := 0, k := f.k + 1, j := 0 }

/-- After the point at (x, y): the point state, the iteration counter and the GROM read index (42_curve_engine.md
R144). -/
def FrameRegs.nextPoint (f : FrameRegs) (x y : Word) : FrameRegs :=
  { f with ix := x, iy := y, j := f.j + 1, g := f.g + 1 }

/-- The read access of a plot (43_compositor.md R163), or nothing for a point out of bounds. -/
def State.plotRead (s : State) (bank : Bank) (pt : Point) : Option PlotAccess :=
  (s.plotTarget bank pt.x pt.y).map fun t => { addr := t.1, px := t.2, color := pt.color, w := s.mem.readWord t.1 }

/-- The write access of a plot (43_compositor.md R163). -/
def State.plotWrite (s : State) (p : PlotAccess) : State := s.setMem (s.mem.writeWord p.addr (pack p.w p.px p.color))

/-- The first engine step of a command. A command that touches no memory (20_memory.md R68) has only its completing
step, which is its meaning. -/
def engineStart (i : Instr) (s : State) : Host.Outcome State Fault Refusal :=
  match i with
  | .clear b => .next (s.setSeq (.busy i (.clearing (bankOf b) 0)))
  | .render => .next (s.setSeq (.busy i (.rendering (frameStart s.active s.phase))))
  | .draw =>
    if s.trails then .next (s.setSeq (.busy i (.rendering (frameStart s.active s.phase))))
    else .next (s.setSeq (.busy i (.clearing s.active 0)))
  | .plot =>
    match s.plotRead s.active ⟨s.ptX, s.ptY, s.ptColor⟩ with
    | none => .next (s.setSeq (.busy i .finish))
    | some p => .next (s.setSeq (.busy i (.writing p)))
  | .nop => exec i (s.setSeq .idle)
  | .present => exec i (s.setSeq .idle)
  | .advance => exec i (s.setSeq .idle)
  | .wlookup _ => exec i (s.setSeq .idle)
  | .glookup _ => exec i (s.setSeq .idle)
  | .cstep => exec i (s.setSeq .idle)

/-- After the last clear write: DRAW goes on to render (44_frame_control.md R181), CLEAR completes. -/
def afterClear (i : Instr) (bank : Bank) (s : State) : State :=
  match i with
  | .draw => s.setSeq (.busy i (.rendering (frameStart bank s.phase)))
  | _ => s.complete

/-- One step of a clear (43_compositor.md R164). -/
def clearTurn (i : Instr) (bank : Bank) (c : Word) (s : State) : State :=
  if c.toNat < wordCount s.params then
    (s.setMem (s.mem.writeWord (s.bankWordAddr bank c.toNat) s.params.bgWord)).setSeq
      (.busy i (.clearing bank (c + 1)))
  else afterClear i bank s

/-- One step of the frame traversal that is not a write (42_curve_engine.md R143): the next point with its read, the
next slot, or the completing step. -/
def renderTurn (i : Instr) (f : FrameRegs) (s : State) : State :=
  if f.k.toNat < slots then
    if f.j.toNat < iterations then
      let q := curveStep s.params.quarter f.ip1 f.ip2 f.ix f.iy
      match s.plotRead f.bank ⟨q.1, q.2, gromEntry f.g.toNat⟩ with
      | none => s.setSeq (.busy i (.rendering (f.nextPoint q.1 q.2)))
      | some p => s.setSeq (.busy i (.plotting (f.nextPoint q.1 q.2) p))
    else s.setSeq (.busy i (.rendering f.nextSlot))
  else s.complete

/-- One engine step of command `i` at progress `p`. -/
def engineStep (i : Instr) (p : Progress) (s : State) : Host.Outcome State Fault Refusal :=
  match p with
  | .start => engineStart i s
  | .clearing bank c => .next (clearTurn i bank c s)
  | .rendering f => .next (renderTurn i f s)
  | .plotting f a => .next ((s.plotWrite a).setSeq (.busy i (.rendering f)))
  | .writing a => .next ((s.plotWrite a).setSeq (.busy i .finish))
  | .finish => .next s.complete

/-- The engine's turn: one step of the running command; nothing while idle (60_exceptions.md R215). -/
def engineTurn (s : State) : Host.Outcome State Fault Refusal :=
  match s.seq with
  | .idle => .next s
  | .busy i p => engineStep i p s

/-- `n` engine turns with no other agent in between. -/
def engineTurns : Nat → State → Host.Outcome State Fault Refusal
  | 0, s => .next s
  | n + 1, s =>
    match engineTurn s with
    | .next t => engineTurns n t
    | .fault f => .fault f
    | .refused r => .refused r

end Sys2Proof.Machine
end

