-- ==== Sys2Proof/Machine/Agents.lean ====
section
/-!
DEFINITION. What each coming action does (60_exceptions.md R216): the host's register accesses, command submissions
and memory accesses, reset, and turns of the engine.
-/
namespace Sys2Proof.Machine

/-- A host store to system memory, big-endian (20_memory.md R61, R64; log entry 14). -/
def Memory.store (m : Memory) (a : Word) (size : Size) (v : Word) : Memory :=
  match size with
  | .byte => m.writeByte a (v.extractLsb' 0 8)
  | .half => (m.writeByte a (v.extractLsb' 8 8)).writeByte (a + 1) (v.extractLsb' 0 8)
  | .word => m.writeWord a v

/-- A host load from system memory, zero-extended (20_memory.md R61, R64; log entry 14). -/
def Memory.load (m : Memory) (a : Word) (size : Size) : Word :=
  match size with
  | .byte => (m.readByte a).setWidth 32
  | .half => (m.readByte a ++ m.readByte (a + 1)).setWidth 32
  | .word => m.readWord a

/-- The same state with the agents' coming actions `l`. -/
def State.setPending (s : State) (l : List Event) : State := { s with pending := l }

/-- `SYNC`: while a command runs the word is rejected and the host waits; otherwise the decoder rejects it, or the
command runs (30_encoding.md R91, 60_exceptions.md R202). DESIGN CHOICE: the host's polls of STATUS leave busData as it
was (log entry 11). -/
def syncWord (w : Word) (s : State) : Host.Outcome State Fault Refusal :=
  if s.isBusy then .next ((s.reject .busyReject).setPending (.wait :: s.pending))
  else
    match decode w with
    | .error e => .next (s.reject (errCodeOf e))
    | .ok i => exec i s

/-- One action, taken off the list already. DESIGN CHOICE: the polls of a WAIT leave busData as it was; only the events
read and load write it (log entry 11). -/
def act (e : Event) (s : State) : Host.Outcome State Fault Refusal :=
  match e with
  | .engine => engineTurn s
  | .write off size v =>
    if windowAccepts off size then .next (s.writeReg (regAt off) v) else .refused .registerAccess
  | .read off size =>
    if windowAccepts off size then .next { s with busData := s.readReg (regAt off) } else .refused .registerAccess
  | .writeWithEngine off v =>
    if windowAccepts off .word then
      if s.isBusy then engineTurn (s.writeReg (regAt off) v) else .next (s.writeReg (regAt off) v)
    else .refused .registerAccess
  | .sync w => syncWord w s
  | .wait => if s.isBusy then engineTurn (s.setPending (.wait :: s.pending)) else .next s
  | .store a size v => .next (s.setMem (s.mem.store a size v))
  | .load a size => .next { s with busData := s.mem.load a size }
  | .rst => .next s.applyReset
  | .hostFrame inp => .next (s.hostFrame inp)

/-- One step of the machine: the next action of the list, or, with none to come, the engine's turn (log entry 1). -/
def stepOnce (s : State) : Host.Outcome State Fault Refusal :=
  match s.pending with
  | [] => engineTurn s
  | e :: rest => act e (s.setPending rest)

/-- The host about to submit the command word `w` to an idle block and to wait for it (log entry 27). -/
def State.placeCommand (s : State) (w : Word) : State :=
  { s with seq := .idle, pending := .sync w :: s.pending }

end Sys2Proof.Machine
end

