-- ==== Sys2Proof/Safety.lean ====
section
/-!
DEFINITION. The terms in which claims speak of a safe run: what lies in a bank, what a sequencer state of a run looks
like, and the invariant every step keeps.
-/
namespace Sys2Proof.Machine

/-- The byte at `a` lies in bank `b`: `[FBb_BASE, FBb_BASE + 2*WIDTH*HEIGHT)`, addresses modulo 2^32 (20_memory.md
R61). -/
def State.inBank (s : State) (b : Bank) (a : Word) : Bool :=
  decide ((a - s.fbBase b).toNat < 2 * s.params.width * s.params.height)

/-- `a` is the address of a word of bank `b` (20_memory.md R65, R66). -/
def State.isBankWord (s : State) (b : Bank) (a : Word) : Bool :=
  decide ((a - s.fbBase b).toNat % 4 = 0) && s.inBank b a

/-- The frame registers during RENDER or DRAW (42_curve_engine.md R143, R144): slot k's accumulators are
t + 278 * k and t + 10430 * k, and g counts the points emitted. -/
def State.frameOk (s : State) (i : Instr) (f : FrameRegs) : Bool :=
  decide (i = .render ∨ i = .draw) && decide (f.bank = s.active) && decide (f.k.toNat ≤ slots) &&
    decide (f.j.toNat ≤ iterations) && decide (f.k.toNat = slots → f.j.toNat = 0) &&
    decide (f.g.toNat = f.k.toNat * iterations + f.j.toNat) &&
    decide (f.ip1 = s.phase + BitVec.ofNat 32 (f.k.toNat * 278)) &&
    decide (f.ip2 = s.phase + BitVec.ofNat 32 (f.k.toNat * 10430))

/-- The sequencer states of a run (10_state.md R43, R44). -/
def State.seqOk (s : State) : Bool :=
  match s.seq with
  | .idle => true
  | .busy i p =>
    i.wf &&
      match p with
      | .start => true
      | .clearing bank c =>
        decide (c.toNat ≤ wordCount s.params) &&
          match i with
          | .clear b => decide (bank = bankOf b)
          | .draw => decide (bank = s.active) && !s.trails
          | _ => false
      | .rendering f => s.frameOk i f
      | .plotting f a => s.frameOk i f && decide (0 < f.j.toNat) && s.isBankWord f.bank a.addr
      | .writing a => decide (i = .plot) && s.isBankWord s.active a.addr
      | .finish => decide (i = .plot)

/-- The bank a command writes, if any (20_memory.md R68). -/
def State.targetBank (s : State) : Instr → Option Bank
  | .clear b => some (bankOf b)
  | .render => some s.active
  | .draw => some s.active
  | .plot => some s.active
  | .nop => none
  | .present => none
  | .advance => none
  | .wlookup _ => none
  | .glookup _ => none
  | .cstep => none

/-- The command that the next step completes or runs whole: the running command at its first step, or the command
word the host submits to the idle block. -/
def State.runsNext (s : State) (i : Instr) : Prop :=
  s.seq = .busy i .start ∨ s.seq = .idle ∧ ∃ w rest, s.pending = .sync w :: rest ∧ decode w = .ok i

/-- The next step is one with `rst` asserted. -/
def State.resetNext (s : State) : Prop := ∃ rest, s.pending = .rst :: rest

/-- The next step is a host write of `v` to the register at offset `off`. -/
def State.writeNext (s : State) (off : Byte) (v : Word) : Prop :=
  ∃ rest, s.pending = .write off .word v :: rest ∨ s.pending = .writeWithEngine off v :: rest

/-- The registers a running command reads have the same values (10_state.md R41, 30_encoding.md R84). -/
def State.SameOperands (s t : State) : Prop :=
  t.trails = s.trails ∧ t.irqEn = s.irqEn ∧ t.active = s.active ∧ t.phase = s.phase ∧ t.speed = s.speed ∧
    t.xpan = s.xpan ∧ t.ypan = s.ypan ∧ t.scalemul = s.scalemul ∧ t.ptX = s.ptX ∧ t.ptY = s.ptY ∧
    t.ptColor = s.ptColor ∧ t.p1 = s.p1 ∧ t.p2 = s.p2 ∧ t.fb0 = s.fb0 ∧ t.fb1 = s.fb1 ∧ t.params = s.params

/-- The fields that must be zero are zero (30_encoding.md R81). -/
def fieldsLegal (w : Word) : Prop :=
  w.extractLsb' 9 7 = 0 ∧ (opField w ≠ 0x01 → w.getLsbD 8 = false) ∧
    (opField w ≠ 0x07 → opField w ≠ 0x08 → w.extractLsb' 16 16 = 0) ∧ (opField w = 0x07 → w.extractLsb' 30 2 = 0)

/-- The offsets whose writes a running command drops (10_state.md R41): CMD, CTRL, PHASE, SPEED, XPAN, YPAN, SCALEMUL,
PT_X, PT_Y, PT_COLOR, P1, P2, FB0_BASE, FB1_BASE. -/
def guardedOffsets : List Byte :=
  [0x00, 0x08, 0x0C, 0x10, 0x14, 0x18, 0x1C, 0x28, 0x2C, 0x30, 0x38, 0x3C, 0x40, 0x44]

/-- The bits of a read/write register that a write reaches (10_state.md section 2). -/
def writableBits : Reg → Word
  | .ctrl => 0x00000003
  | .ptColor => 0x00FFFFFF
  | .fb0Base => 0xFFFFFFFC
  | .fb1Base => 0xFFFFFFFC
  | _ => 0xFFFFFFFF

/-- Every register of the window and every output at its reset value (10_state.md R21 to R39, 70_reset_and_hazards.md
R240), SCALEMUL by the real product of 10_state.md R28. -/
def State.AtResetValues (t : State) : Prop :=
  t.readReg .cmd = 0 ∧ t.readReg .status = 0x00000200 ∧ t.readReg .ctrl = 0 ∧ t.readReg .phase = 0 ∧
    t.readReg .speed = 8 ∧ (t.readReg .xpan).toNat = t.params.width / 2 ∧
    (t.readReg .ypan).toNat = t.params.height / 2 ∧
    (t.readReg .scalemul).toNat = ⌊((t.params.height / 2 : ℕ) : ℝ) * Real.pi⌋₊ ∧
    (t.readReg .width).toNat = t.params.width ∧ (t.readReg .height).toNat = t.params.height ∧
    t.readReg .ptX = 0 ∧ t.readReg .ptY = 0 ∧ t.readReg .ptColor = 0 ∧ t.readReg .lookup = 0 ∧
    t.readReg .p1 = 0 ∧ t.readReg .p2 = 0 ∧ t.readReg .fb0Base = 0 ∧ t.readReg .fb1Base = 0 ∧
    t.seq = .idle ∧ t.irq = false ∧ t.presentBank = 1 ∧ t.presentBase = 0

/-- What holds of every state of a run: admissible parameters (00_scope.md R6, R7), memory in its canonical form, and
the sequencer in a state of its pseudocode. -/
def State.Inv (s : State) : Prop := s.params.Admissible ∧ s.mem.wf = true ∧ s.seqOk = true

end Sys2Proof.Machine
end

