-- ==== Sys2Proof/Certificates/Slice0/Obligations.lean ====
section
/-!
DEFINITION. The statements for the provers, one per obligation of OBLIGATIONS.json.
-/
open Sys2Proof Sys2Proof.Machine

/-! ### Command words -/

/-- 30_encoding.md R85, R91: no bit of an encoding is dropped. -/
def Obligations.DecodeOfEncode : Prop :=
  ∀ i : Instr, i.wf = true → decode (encode i) = .ok i

/-- 30_encoding.md section 3: a command has one word, and a decoded command is one that a word can carry. -/
def Obligations.EncodeOfDecode : Prop :=
  ∀ (w : Word) (i : Instr), decode w = .ok i → i.wf = true ∧ encode i = w

/-- 95_test_vectors.md section 2.1, V1.1 to V1.25: words written out from the encodings. -/
def Obligations.SpecWordsDecode : Prop :=
  decode 0x00000000 = .ok .nop ∧ decode 0x00000001 = .ok (.clear 0) ∧ decode 0x00000101 = .ok (.clear 1) ∧
    decode 0x00000002 = .ok .render ∧ decode 0x00000003 = .ok .present ∧ decode 0x00000004 = .ok .advance ∧
    decode 0x00000005 = .ok .draw ∧ decode 0x00000006 = .ok .plot ∧ decode 0x00000007 = .ok (.wlookup 0) ∧
    decode 0x10000007 = .ok (.wlookup 4096) ∧ decode 0x3FFF0007 = .ok (.wlookup 16383) ∧
    decode 0x40000007 = .error .reservedField ∧ decode 0x80000007 = .error .reservedField ∧
    decode 0x00000008 = .ok (.glookup 0) ∧ decode 0x04000008 = .ok (.glookup 1024) ∧
    decode 0xFFFF0008 = .ok (.glookup 65535) ∧ decode 0x00000009 = .ok .cstep ∧
    decode 0x00000102 = .error .reservedField ∧ decode 0x00000201 = .error .reservedField ∧
    decode 0x00010001 = .error .reservedField ∧ decode 0x00000108 = .error .reservedField ∧
    decode 0x00000100 = .error .reservedField ∧ decode 0x0000000A = .error .illegalOpcode ∧
    decode 0x000000FF = .error .illegalOpcode ∧ decode 0xFFFF00FF = .error .illegalOpcode

/-- 60_exceptions.md R202 with 30_encoding.md R81, R86, R87: the order of the checks of a CMD write, the fields each
opcode requires to be zero, the code of each rejection and that it changes nothing else, and the command accepted. -/
def Obligations.CommandWordAcceptance : Prop :=
  ∀ (s : State) (w : Word),
    (s.isBusy = true → s.writeReg .cmd w = { s with err := true, errcode := .busyReject }) ∧
    (s.isBusy = false → 0x0A ≤ opField w → s.writeReg .cmd w = { s with err := true, errcode := .illegalOpcode }) ∧
    (s.isBusy = false → opField w < 0x0A → ¬ fieldsLegal w →
      s.writeReg .cmd w = { s with err := true, errcode := .reservedField }) ∧
    (s.isBusy = false → opField w < 0x0A → fieldsLegal w →
      s.writeReg .cmd w =
        { s with
          seq := .busy
            (match opField w with
              | 0x00 => .nop
              | 0x01 => .clear (w.extractLsb' 8 1).toNat
              | 0x02 => .render
              | 0x03 => .present
              | 0x04 => .advance
              | 0x05 => .draw
              | 0x06 => .plot
              | 0x07 => .wlookup (w.extractLsb' 16 14).toNat
              | 0x08 => .glookup (w.extractLsb' 16 16).toNat
              | _ => .cstep) .start }) ∧
    (opField w < 0x0A →
      (fieldsLegal w ↔ ∃ row, opTable[opField w]? = some row ∧ w &&& row.mask = row.pattern))

/-! ### The register window -/

/-- The fields of STATUS (10_state.md R22), and 60_exceptions.md R208: clearing them, a completion in the step of a
clearing write wins, and DONE and ERR share the one line. -/
def Obligations.StatusFieldsAndAcknowledge : Prop :=
  (∀ s : State, s.statusWord.toNat =
    s.isBusy.toNat + 2 * s.done.toNat + 4 * s.err.toNat +
      16 * (match s.errcode with | .noError => 0 | .illegalOpcode => 1 | .reservedField => 2 | .busyReject => 3) +
      256 * s.active.toNat + 512 * s.presented.toNat) ∧
  (∀ (s : State) (v : Word), s.writeReg .status v =
    { s with
      done := if v.getLsbD 1 = true then false else s.done
      err := if v.getLsbD 2 = true then false else s.err
      errcode := if v.getLsbD 2 = true then .noError else s.errcode }) ∧
  (∀ (s t : State) (v : Word), s.isBusy = true → engineTurn s = .next t → t.isBusy = false →
    ∃ u, act (.writeWithEngine 0x04 v) s = .next u ∧ u.isBusy = false ∧ u.done = true) ∧
  (∀ s : State, s.irq = (s.irqEn && (s.done || s.err)))

/-- 10_state.md section 2, offset by offset: the field of the state that a write of each writable register reaches and
that a read of it returns, reserved and hardwired bits dropped; and that a write changes no other register. -/
def Obligations.RegisterReadAfterWrite : Prop :=
  (∀ (s : State) (v : Word), s.isBusy = false →
    act (.write 0x00 .word v) s = .next (s.writeReg .cmd v) ∧
    act (.write 0x04 .word v) s = .next (s.writeReg .status v) ∧
    act (.write 0x08 .word v) s = .next { s with trails := v.getLsbD 0, irqEn := v.getLsbD 1 } ∧
    act (.write 0x0C .word v) s = .next { s with phase := v } ∧
    act (.write 0x10 .word v) s = .next { s with speed := v } ∧
    act (.write 0x14 .word v) s = .next { s with xpan := v } ∧
    act (.write 0x18 .word v) s = .next { s with ypan := v } ∧
    act (.write 0x1C .word v) s = .next { s with scalemul := v } ∧
    act (.write 0x28 .word v) s = .next { s with ptX := v } ∧
    act (.write 0x2C .word v) s = .next { s with ptY := v } ∧
    act (.write 0x30 .word v) s = .next { s with ptColor := v.extractLsb' 0 24 } ∧
    act (.write 0x38 .word v) s = .next { s with p1 := v } ∧
    act (.write 0x3C .word v) s = .next { s with p2 := v } ∧
    act (.write 0x40 .word v) s = .next { s with fb0 := v.extractLsb' 2 30 } ∧
    act (.write 0x44 .word v) s = .next { s with fb1 := v.extractLsb' 2 30 }) ∧
  (∀ s : State,
    act (.read 0x04 .word) s = .next { s with busData := s.statusWord } ∧
    act (.read 0x08 .word) s = .next { s with busData := BitVec.ofNat 32 (s.trails.toNat + 2 * s.irqEn.toNat) } ∧
    act (.read 0x0C .word) s = .next { s with busData := s.phase } ∧
    act (.read 0x10 .word) s = .next { s with busData := s.speed } ∧
    act (.read 0x14 .word) s = .next { s with busData := s.xpan } ∧
    act (.read 0x18 .word) s = .next { s with busData := s.ypan } ∧
    act (.read 0x1C .word) s = .next { s with busData := s.scalemul } ∧
    act (.read 0x28 .word) s = .next { s with busData := s.ptX } ∧
    act (.read 0x2C .word) s = .next { s with busData := s.ptY } ∧
    act (.read 0x30 .word) s = .next { s with busData := BitVec.ofNat 32 s.ptColor.toNat } ∧
    act (.read 0x38 .word) s = .next { s with busData := s.p1 } ∧
    act (.read 0x3C .word) s = .next { s with busData := s.p2 } ∧
    act (.read 0x40 .word) s = .next { s with busData := BitVec.ofNat 32 (4 * s.fb0.toNat) } ∧
    act (.read 0x44 .word) s = .next { s with busData := BitVec.ofNat 32 (4 * s.fb1.toNat) }) ∧
  (∀ (s : State) (r : Reg) (v : Word), s.isBusy = false → r.guarded = true → r ≠ .cmd →
    (s.writeReg r v).readReg r = v &&& writableBits r ∧
    (∀ q : Reg, q ≠ r → (s.writeReg r v).readReg q = s.readReg q) ∧
    (s.writeReg r v).seq = s.seq ∧ (s.writeReg r v).mem = s.mem ∧ (s.writeReg r v).params = s.params ∧
    (s.writeReg r v).pending = s.pending ∧ (s.writeReg r v).busData = s.busData ∧ (s.writeReg r v).host = s.host)

/-- 10_state.md R29, R30, R39: WIDTH, HEIGHT and the reserved offsets, at any time; with them that LOOKUP ignores writes
(section 2) and that CMD reads 0 (section 2). -/
def Obligations.ReadOnlyAndReservedIgnoreWrites : Prop :=
  ∀ (s : State) (v : Word),
    act (.write 0x20 .word v) s = .next s ∧ act (.write 0x24 .word v) s = .next s ∧
    act (.read 0x20 .word) s = .next { s with busData := BitVec.ofNat 32 s.params.width } ∧
    act (.read 0x24 .word) s = .next { s with busData := BitVec.ofNat 32 s.params.height } ∧
    act (.write 0x34 .word v) s = .next s ∧
    act (.read 0x34 .word) s = .next { s with busData := s.lookup } ∧
    act (.read 0x00 .word) s = .next { s with busData := 0 } ∧
    (∀ off : Byte, 0x48 ≤ off.toNat → off.toNat % 4 = 0 →
      act (.write off .word v) s = .next s ∧ act (.read off .word) s = .next { s with busData := 0 })

/-- 10_state.md R41: writes while a command runs. -/
def Obligations.WritesWhileBusyAreDropped : Prop :=
  (∀ (s : State) (off : Byte) (v : Word), s.isBusy = true → off ∈ guardedOffsets →
    act (.write off .word v) s = .next { s with err := true, errcode := .busyReject }) ∧
  (∀ (s : State) (off : Byte) (v : Word), s.isBusy = true → off.toNat % 4 = 0 → off ∉ guardedOffsets →
    ∃ t, act (.write off .word v) { s with seq := .idle } = .next t ∧
      act (.write off .word v) s = .next { t with seq := s.seq })

/-- 10_state.md section 3, the consequence the spec derives from R41 and R45 ("every register a running command reads
is constant for the whole command"): whoever moves, the registers a running command reads keep their values. -/
def Obligations.RunningCommandOperandsAreConstant : Prop :=
  ∀ s t : State, s.isBusy = true → step s = .next t → t.isBusy = true → s.SameOperands t

/-- 10_state.md R40: the accesses the window refuses, and that it accepts the others. -/
def Obligations.WindowAcceptsOnlyAlignedWords : Prop :=
  ∀ (s : State) (off : Byte) (size : Size) (v : Word),
    ((size ≠ .word ∨ off.toNat % 4 ≠ 0) →
      act (.write off size v) s = .refused .registerAccess ∧ act (.read off size) s = .refused .registerAccess) ∧
    (size = .word → off.toNat % 4 = 0 →
      (∃ t, act (.write off size v) s = .next t) ∧ (∃ t, act (.read off size) s = .next t))

/-- 10_state.md R42: reads have no side effect, and what a command writes changes only in its completing step (here
also with R45 and 20_memory.md R72: that step writes no memory and sets DONE). -/
def Obligations.ResultsAppearAtCompletion : Prop :=
  (∀ (s : State) (off : Byte), off.toNat % 4 = 0 →
    act (.read off .word) s = .next { s with busData := s.readReg (regAt off) }) ∧
  (∀ s t : State, s.isBusy = true → engineTurn s = .next t → t.isBusy = true →
    t = { s with seq := t.seq, mem := t.mem }) ∧
  (∀ s t : State, s.isBusy = true → engineTurn s = .next t → t.isBusy = false → t.done = true ∧ t.mem = s.mem)

/-- 60_exceptions.md R206: the interrupt level and how it is cleared. -/
def Obligations.InterruptLevel : Prop :=
  (∀ s : State, s.irq = true ↔ s.irqEn = true ∧ (s.done = true ∨ s.err = true)) ∧
  (∀ s : State, (s.writeReg .status 0x00000006).irq = false) ∧
  (∀ (s : State) (v : Word), s.isBusy = false → v.getLsbD 1 = false → (s.writeReg .ctrl v).irq = false)

/-- 60_exceptions.md R207: every completion sets DONE, and it stays 1 until the host clears it (or reset). -/
def Obligations.DoneUntilTheHostClearsIt : Prop :=
  (∀ (i : Instr) (s : State), s.seq = .idle → ∃ t, exec i s = .next t ∧ t.done = true ∧ t.seq = .idle) ∧
  (∀ s t : State, s.isBusy = true → engineTurn s = .next t → t.isBusy = false → t.done = true) ∧
  (∀ s t : State, step s = .next t → s.done = true → t.done = false →
    s.resetNext ∨ ∃ v, v.getLsbD 1 = true ∧ s.writeNext 0x04 v)

/-! ### Reset -/

/-- 70_reset_and_hazards.md R240: reset from any state, busy or not, the state the machine starts in, and that the
idle block waits for a command. -/
def Obligations.ResetFromAnyState : Prop :=
  (∀ (s : State) (rest : List Event), s.params.Admissible → s.pending = .rst :: rest →
    ∃ t, step s = .next t ∧ t.AtResetValues ∧ t.params = s.params ∧ t.pending = rest) ∧
  State.reset.AtResetValues ∧
  (∀ s : State, s.seq = .idle → s.pending = [] → step s = .next s)

/-- 70_reset_and_hazards.md R241: after any number of engine steps a reset leaves memory as those steps left it, and
the abandoned command does not set DONE. -/
def Obligations.ResetKeepsThePerformedPrefix : Prop :=
  ∀ (s t : State) (n : Nat) (rest : List Event),
    s.pending = List.replicate n .engine ++ .rst :: rest →
    engineTurns n { s with pending := [] } = .next t →
    ∃ u, Host.Core.run core (n + 1) s = .next u ∧ State.mem u = t.mem ∧ State.done u = false ∧
      State.seq u = .idle ∧ State.pending u = rest

/-- 00_scope.md R5: the two phase increments are the truncations of the document's formulas. -/
def Obligations.PhaseIncrementsAreTruncations : Prop :=
  (ang1inc.toNat = ⌊(4 * 16384 : ℝ) / 235⌋₊) ∧ (ang2inc.toNat = ⌊(4 * 16384 : ℝ) / (2 * Real.pi)⌋₊)

/-! ### Memory -/

/-- 20_memory.md section 2, big-endian by the spec's general knowledge (log entry 10): the bytes of a word, and that writing one leaves every other byte as it was. -/
def Obligations.WordsAreBigEndian : Prop :=
  ∀ (m : Memory) (a v : Word),
    (m.writeWord a v).readByte a = v.extractLsb' 24 8 ∧
    (m.writeWord a v).readByte (a + 1) = v.extractLsb' 16 8 ∧
    (m.writeWord a v).readByte (a + 2) = v.extractLsb' 8 8 ∧
    (m.writeWord a v).readByte (a + 3) = v.extractLsb' 0 8 ∧
    (m.writeWord a v).readWord a = v ∧
    (∀ b : Word, b ≠ a → b ≠ a + 1 → b ≠ a + 2 → b ≠ a + 3 → (m.writeWord a v).readByte b = m.readByte b)

/-- 20_memory.md sections 1 and 2: the host's own accesses to frame-buffer memory: the bytes a store writes, in
big-endian order (the spec's general knowledge, log entry 10), every other byte as it was, and what a load returns
afterwards. The widths, and accesses at any alignment, are the model's choice (DESIGN CHOICE, log entry 14). -/
def Obligations.HostStoreThenLoad : Prop :=
  ∀ (s : State) (a v : Word) (size : Size), ∃ t u,
    act (.store a size v) s = .next t ∧ act (.load a size) t = .next u ∧
    t = { s with mem := t.mem } ∧ u = { t with busData := u.busData } ∧
    (match size with
      | .byte => u.busData = v &&& 0xFF ∧ t.mem.readByte a = v.extractLsb' 0 8 ∧
          ∀ b : Word, b ≠ a → t.mem.readByte b = s.mem.readByte b
      | .half => u.busData = v &&& 0xFFFF ∧ t.mem.readByte a = v.extractLsb' 8 8 ∧
          t.mem.readByte (a + 1) = v.extractLsb' 0 8 ∧
          ∀ b : Word, b ≠ a → b ≠ a + 1 → t.mem.readByte b = s.mem.readByte b
      | .word => u.busData = v ∧ t.mem.readByte a = v.extractLsb' 24 8 ∧
          t.mem.readByte (a + 1) = v.extractLsb' 16 8 ∧ t.mem.readByte (a + 2) = v.extractLsb' 8 8 ∧
          t.mem.readByte (a + 3) = v.extractLsb' 0 8 ∧
          ∀ b : Word, b ≠ a → b ≠ a + 1 → b ≠ a + 2 → b ≠ a + 3 → t.mem.readByte b = s.mem.readByte b)

/-! ### The ROMs -/

/-- 40_waveform_rom.md section 3, which the spec derives from its R101 to R104: the properties of the ROM. -/
def Obligations.WaveformRomSymmetries : Prop :=
  ∀ quarter : List (BitVec 15),
    (∀ i, i < 16384 →
      (highHalf (wromWord quarter i)).toInt = -(highHalf (wromWord quarter ((i + 8192) % 16384))).toInt ∧
      lowHalf (wromWord quarter i) = highHalf (wromWord quarter ((i + 4096) % 16384)) ∧
      -32767 ≤ (highHalf (wromWord quarter i)).toInt ∧ (highHalf (wromWord quarter i)).toInt ≤ 32767 ∧
      -32767 ≤ (lowHalf (wromWord quarter i)).toInt ∧ (lowHalf (wromWord quarter i)).toInt ≤ 32767) ∧
    (∀ r, r < 4096 → highHalf (wromWord quarter (4096 + r)) = highHalf (wromWord quarter (4095 - r)))

/-- 40_waveform_rom.md R104. -/
def Obligations.HalvesAreSignExtended : Prop :=
  ∀ w : Word,
    (highHalf w).toInt = (w.extractLsb' 16 16).toInt ∧ (highHalf w).toInt = w.toInt / 65536 ∧
    (lowHalf w).toInt = (w.extractLsb' 0 16).toInt ∧
    -32768 ≤ (highHalf w).toInt ∧ (highHalf w).toInt ≤ 32767 ∧
    -32768 ≤ (lowHalf w).toInt ∧ (lowHalf w).toInt ≤ 32767

/-- 40_waveform_rom.md R105. -/
def Obligations.WromIndexIsModulo : Prop :=
  ∀ v : Word, (wromIndex v : Int) = v.toInt % 16384 ∧
    ∀ u : Word, (∀ k, k < 14 → u.getLsbD k = v.getLsbD k) → wromIndex u = wromIndex v

/-- 41_gradient_rom.md section 2, channel G: the document's formula over the rationals and the spec's other form of
it. -/
def Obligations.GreenMatchesTheFormula : Prop :=
  ∀ j : Nat, j < 1024 →
    (gradG j : ℤ) = ⌊256 * (1 - (1 - (j : ℚ) / 1024) ^ 2)⌋ ∧
    (gradG j : ℤ) = 256 - ⌈(1024 - (j : ℚ)) ^ 2 / 4096⌉ ∧ gradG j ≤ 255

/-- 41_gradient_rom.md section 2, the Y/U/V conversion: the document's formulas over the rationals, with floor. -/
def Obligations.LumaAndChromaMatchTheFormulas : Prop :=
  ∀ r g b : Nat,
    gradY r g b = ⌊(0.257 * r + 0.504 * g + 0.098 * b + 16 : ℚ)⌋ ∧
    gradU r g b = ⌊(-0.148 * r - 0.291 * g + 0.439 * b + 128 : ℚ)⌋ ∧
    gradV r g b = ⌊(0.439 * r - 0.368 * g - 0.071 * b + 128 : ℚ)⌋

/-- 41_gradient_rom.md sections 2 and 3: over the whole ROM the channels are in range, so an entry's three bytes are
Y, U and V with nothing dropped. -/
def Obligations.GradientEntriesHoldTheirChannels : Prop :=
  ∀ k j : Nat, k < 64 → j < 1024 →
    2 ≤ gradB (4 * k) (gradG j) ∧ gradB (4 * k) (gradG j) ≤ 256 ∧
    41 ≤ gradY (4 * k) (gradG j) (gradB (4 * k) (gradG j)) ∧
    gradY (4 * k) (gradG j) (gradB (4 * k) (gradG j)) ≤ 209 ∧
    17 ≤ gradU (4 * k) (gradG j) (gradB (4 * k) (gradG j)) ∧
    gradU (4 * k) (gradG j) (gradB (4 * k) (gradG j)) ≤ 240 ∧
    25 ≤ gradV (4 * k) (gradG j) (gradB (4 * k) (gradG j)) ∧
    gradV (4 * k) (gradG j) (gradB (4 * k) (gradG j)) ≤ 229 ∧
    ((colorY (gromEntry (k * 1024 + j))).toNat : ℤ) = gradY (4 * k) (gradG j) (gradB (4 * k) (gradG j)) ∧
    ((colorU (gromEntry (k * 1024 + j))).toNat : ℤ) = gradU (4 * k) (gradG j) (gradB (4 * k) (gradG j)) ∧
    ((colorV (gromEntry (k * 1024 + j))).toNat : ℤ) = gradV (4 * k) (gradG j) (gradB (4 * k) (gradG j))

/-- 41_gradient_rom.md section 4, which the spec derives from its R121 to R125: the properties of the ROM. -/
def Obligations.GradientRomProperties : Prop :=
  gradG 0 = 0 ∧ gradG 1023 = 255 ∧ (∀ j, j < 1024 → gradG j ≤ 255) ∧
  (∀ i j, i ≤ j → j < 1024 → gradG i ≤ gradG j) ∧ (∀ v, v ≤ 255 → ∃ j, j < 1024 ∧ gradG j = v) ∧
  (gradG 1 = 0 ∧ gradG 2 = 0 ∧ gradG 3 = 1 ∧ gradG 4 = 1 ∧ gradG 5 = 2 ∧ gradG 64 = 31 ∧ gradG 128 = 60 ∧
    gradG 256 = 112 ∧ gradG 300 = 128 ∧ gradG 512 = 192 ∧ gradG 768 = 240 ∧ gradG 960 = 255) ∧
  (gromEntry 0 = 0x29F06D ∧ gromEntry 1023 = 0x9D6D19 ∧ gromEntry 1024 = 0x29EE6F ∧ gromEntry 32768 = 0x43C1AA ∧
    gromEntry 65535 = 0xD11190)

/-! ### The curve recurrence engine -/

/-- 42_curve_engine.md section 1, which the spec derives from R141 and 40_waveform_rom.md: the range, and that the
sums are exact. -/
def Obligations.CurveStepIsExactAndBounded : Prop :=
  ∀ (quarter : List (BitVec 15)) (p1 p2 x y : Word),
    (curveStep quarter p1 p2 x y).1.toInt =
      (lowHalf (wromWord quarter (wromIndex (p1 + x)))).toInt +
        (lowHalf (wromWord quarter (wromIndex (p2 + y)))).toInt ∧
    (curveStep quarter p1 p2 x y).2.toInt =
      (highHalf (wromWord quarter (wromIndex (p1 + x)))).toInt +
        (highHalf (wromWord quarter (wromIndex (p2 + y)))).toInt ∧
    -65534 ≤ (curveStep quarter p1 p2 x y).1.toInt ∧ (curveStep quarter p1 p2 x y).1.toInt ≤ 65534 ∧
    -65534 ≤ (curveStep quarter p1 p2 x y).2.toInt ∧ (curveStep quarter p1 p2 x y).2.toInt ≤ 65534

/-- 42_curve_engine.md section 1: only the low 14 bits of the accumulators and of the point state matter. -/
def Obligations.CurveStepUsesOnlyLowBits : Prop :=
  ∀ (quarter : List (BitVec 15)) (p1 p2 x y q1 q2 u v : Word),
    p1.toNat % 16384 = q1.toNat % 16384 → p2.toNat % 16384 = q2.toNat % 16384 →
    x.toNat % 16384 = u.toNat % 16384 → y.toNat % 16384 = v.toNat % 16384 →
    curveStep quarter p1 p2 x y = curveStep quarter q1 q2 u v

/-- 42_curve_engine.md R143, R144: a frame emits 65536 points; point k * 1024 + j is the state after j + 1 steps of
slot k from (0, 0), with slot k's accumulators, paired with the GROM entry of that number. -/
def Obligations.FrameTraversal : Prop :=
  ∀ (quarter : List (BitVec 15)) (t : Word),
    (framePoints quarter t).length = 65536 ∧
    ∀ k j, k < 64 → j < 1024 →
      (framePoints quarter t)[k * 1024 + j]? =
        some
          { x := ((fun p : Word × Word => curveStep quarter (t + BitVec.ofNat 32 (k * 278))
              (t + BitVec.ofNat 32 (k * 10430)) p.1 p.2)^[j + 1] (0, 0)).1
            y := ((fun p : Word × Word => curveStep quarter (t + BitVec.ofNat 32 (k * 278))
              (t + BitVec.ofNat 32 (k * 10430)) p.1 p.2)^[j + 1] (0, 0)).2
            color := gromEntry (k * 1024 + j) }

/-- 42_curve_engine.md section 4: the points of a frame depend on the Animation Phase only modulo 16384. -/
def Obligations.FrameDependsOnPhaseModN : Prop :=
  ∀ (quarter : List (BitVec 15)) (t u : Word), t &&& 0x3FFF = u &&& 0x3FFF →
    framePoints quarter t = framePoints quarter u

/-- 42_curve_engine.md section 4, which the spec derives from R141 to R145: what the frame-buffer result of RENDER is a function of. Two states that agree on it
agree on every byte of the bank afterwards, whatever else they hold. -/
def Obligations.RenderReadsNothingElse : Prop :=
  ∀ s s' : State, s.params.Admissible → s'.params.Admissible → s.seq = .idle → s'.seq = .idle →
    s.phase &&& 0x3FFF = s'.phase &&& 0x3FFF → s.params.quarter = s'.params.quarter →
    s.scalemul = s'.scalemul → s.xpan = s'.xpan → s.ypan = s'.ypan →
    s.params.width = s'.params.width → s.params.height = s'.params.height →
    s.fbBase s.active = s'.fbBase s'.active →
    (∀ a, s.inBank s.active a = true → s.mem.readByte a = s'.mem.readByte a) →
    ∃ t t', exec .render s = .next t ∧ exec .render s' = .next t' ∧
      ∀ a, s.inBank s.active a = true → t.mem.readByte a = t'.mem.readByte a

/-! ### Transform, packer, compositor -/

/-- 43_compositor.md R160 over the integers: the product wraps, the shift is floor division, the pan is added after
it and wraps; and a plot's column and row are its two uses. -/
def Obligations.TransformWrapsAndFloors : Prop :=
  (∀ (s : State) (v pan : Word),
    (s.xform v pan).toInt = Int.bmod (Int.bmod (v.toInt * s.scalemul.toInt) (2 ^ 32) / 16384 + pan.toInt) (2 ^ 32)) ∧
  (∀ (s : State) (bank : Bank) (x y : Word), s.plotTarget bank x y =
    if s.inBounds (s.xform x s.xpan) (s.xform y s.ypan) = true then
      some (s.fbAddr bank (s.xform x s.xpan).toNat (s.xform y s.ypan).toNat, s.xform x s.xpan)
    else none)

/-- 43_compositor.md R162, in the rule's own shifts and masks. -/
def Obligations.PackMatchesTheFieldFormula : Prop :=
  ∀ (w px : Word) (c : Color),
    (px.toNat % 2 = 0 → pack w px c =
      ((c.extractLsb' 16 8).setWidth 32 <<< 24) ||| ((c.extractLsb' 8 8).setWidth 32 <<< 16) |||
        (w &&& 0x0000FF00) ||| (c.extractLsb' 0 8).setWidth 32) ∧
    (px.toNat % 2 = 1 → pack w px c =
      (w &&& 0xFF000000) ||| ((c.extractLsb' 8 8).setWidth 32 <<< 16) |||
        ((c.extractLsb' 16 8).setWidth 32 <<< 8) ||| (c.extractLsb' 0 8).setWidth 32)

/-- 43_compositor.md section 3 and 20_memory.md section 3: no command changes a byte outside the bank it writes. -/
def Obligations.CommandsStayInsideTheirBank : Prop :=
  ∀ (s : State) (i : Instr), s.params.Admissible → s.seq = .idle →
    ∃ t, exec i s = .next t ∧
      ∀ a : Word, (∀ b, s.targetBank i = some b → s.inBank b a = false) → t.mem.readByte a = s.mem.readByte a

/-- 20_memory.md section 3: a CLEAR or a PLOT done twice in a row leaves memory as one does. -/
def Obligations.ClearAndPlotAreIdempotent : Prop :=
  ∀ (s : State) (i : Instr), s.Inv → s.seq = .idle → (i = .clear 0 ∨ i = .clear 1 ∨ i = .plot) →
    ∃ t u, exec i s = .next t ∧ exec i t = .next u ∧ u.mem = t.mem

/-- 44_frame_control.md section 2, the trails invariant the spec derives, for one further frame (and so for any number): with TRAILS = 1 and SPEED = 0 the frame
DRAW, PRESENT, ADVANCE, DRAW leaves the bank as the first DRAW did. -/
def Obligations.RepeatedTrailsFrameChangesNothing : Prop :=
  ∀ s : State, s.Inv → s.seq = .idle → s.trails = true → s.speed = 0 →
    ∃ t1 t2 t3 t4, exec .draw s = .next t1 ∧ exec .present t1 = .next t2 ∧ exec .advance t2 = .next t3 ∧
      exec .draw t3 = .next t4 ∧ t4.mem = t1.mem ∧ t4.active = s.active ∧ t4.phase = s.phase

/-- 44_frame_control.md section 1, the example of DRAW, for every surface, background and QUARTER: at SCALEMUL = 0 the
bank is cleared but for the word of pixel (XPAN, YPAN), which holds the last point's colour. -/
def Obligations.DrawAtZeroScale : Prop :=
  ∀ s : State, s.params.Admissible → s.seq = .idle → s.trails = false → s.scalemul = 0 →
    s.inBounds s.xpan s.ypan = true →
    ∃ t, exec .draw s = .next t ∧
      ∀ px py, px < s.params.width → py < s.params.height →
        t.mem.readWord (s.fbAddr s.active px py) =
          if px / 2 = s.xpan.toNat / 2 ∧ py = s.ypan.toNat then pack s.params.bgWord s.xpan 0xD11190
          else s.params.bgWord

/-! ### The commands -/

/-- 44_frame_control.md R180. -/
def Obligations.NopOnlyCompletes : Prop :=
  (∀ s : State, s.seq = .idle → exec .nop s = .next { s with done := true }) ∧
  (∀ s t : State, s.seq = .idle → exec .nop s = .next t → t.irq = s.irqEn) ∧
  (∀ s : State, s.isBusy = true → exec .nop s = .next { s with err := true, errcode := .busyReject }) ∧
  (∀ w : Word, opField w = 0x00 → decode w = if w = 0x00000000 then .ok .nop else .error .reservedField)

/-- 44_frame_control.md R182, with the outputs of 10_state.md R20. -/
def Obligations.PresentHandsOverAndSwaps : Prop :=
  (∀ s : State, s.seq = .idle → ∃ t, exec .present s = .next t ∧
    t = { s with presented := s.active, active := if s.trails = true then s.active else 1 - s.active, done := true } ∧
    t.presentBank = s.active ∧ t.presentBase = s.fbBase s.active) ∧
  (∀ s : State, s.isBusy = true → exec .present s = .next { s with err := true, errcode := .busyReject }) ∧
  (∀ w : Word, opField w = 0x03 → decode w = if w = 0x00000003 then .ok .present else .error .reservedField)

/-- 44_frame_control.md R183. -/
def Obligations.AdvanceAddsSpeedToPhase : Prop :=
  (∀ s : State, s.seq = .idle → exec .advance s = .next { s with phase := s.phase + s.speed, done := true }) ∧
  (∀ s : State, s.isBusy = true → exec .advance s = .next { s with err := true, errcode := .busyReject }) ∧
  (∀ w : Word, opField w = 0x04 → decode w = if w = 0x00000004 then .ok .advance else .error .reservedField)

/-- A(i) by quadrants (40_waveform_rom.md R101). -/
def sampleByQuadrant (quarter : List (BitVec 15)) (i : Nat) : Half :=
  if i < 4096 then (quarter.getD i 0).setWidth 16
  else if i < 8192 then (quarter.getD (8191 - i) 0).setWidth 16
  else if i < 12288 then -(quarter.getD (i - 8192) 0).setWidth 16
  else -(quarter.getD (16383 - i) 0).setWidth 16

/-- 40_waveform_rom.md R108, with the word of R101 and R103. -/
def Obligations.WlookupReadsTheWaveform : Prop :=
  (∀ (s : State) (idx : Nat), s.seq = .idle → idx < 16384 →
    exec (.wlookup idx) s = .next
      { s with
        lookup := sampleByQuadrant s.params.quarter idx ++ sampleByQuadrant s.params.quarter ((idx + 4096) % 16384)
        done := true }) ∧
  (∀ (s : State) (idx : Nat), s.isBusy = true →
    exec (.wlookup idx) s = .next { s with err := true, errcode := .busyReject }) ∧
  (∀ w : Word, opField w = 0x07 → decode w =
    if w.extractLsb' 8 8 = 0 ∧ w.extractLsb' 30 2 = 0 then .ok (.wlookup (w.extractLsb' 16 14).toNat)
    else .error .reservedField)

/-- The Y of GROM entry g by the formulas of 41_gradient_rom.md R120 to R124, and its U and V. -/
def entryChannels (g : Nat) : ℤ × ℤ × ℤ :=
  let r : ℤ := 4 * (g / 1024 : ℕ)
  let gr : ℤ := (268435456 - 256 * (1024 - (g % 1024 : ℕ)) ^ 2) / 1048576
  let b : ℤ := (512 - (r + gr)) / 2
  (16 + (257 * r + 504 * gr + 98 * b) / 1000, 128 + (-148 * r - 291 * gr + 439 * b) / 1000,
    128 + (439 * r - 368 * gr - 71 * b) / 1000)

/-- 41_gradient_rom.md R127, with the entry of R120 to R125. -/
def Obligations.GlookupReadsTheGradient : Prop :=
  (∀ (s : State) (gidx : Nat), s.seq = .idle → gidx < 65536 →
    exec (.glookup gidx) s = .next
      { s with
        lookup := BitVec.ofInt 32 (65536 * (entryChannels gidx).1 + 256 * (entryChannels gidx).2.1 +
          (entryChannels gidx).2.2)
        done := true }) ∧
  (∀ (s : State) (gidx : Nat), s.isBusy = true →
    exec (.glookup gidx) s = .next { s with err := true, errcode := .busyReject }) ∧
  (∀ w : Word, opField w = 0x08 → decode w =
    if w.extractLsb' 8 8 = 0 then .ok (.glookup (w.extractLsb' 16 16).toNat) else .error .reservedField)

/-- 42_curve_engine.md R146, with the step of R141. -/
def Obligations.CstepStepsThePoint : Prop :=
  (∀ s : State, s.seq = .idle →
    exec .cstep s = .next
      { s with
        ptX := lowHalf (wromWord s.params.quarter ((s.p1 + s.ptX).toNat % 16384)) +
          lowHalf (wromWord s.params.quarter ((s.p2 + s.ptY).toNat % 16384))
        ptY := highHalf (wromWord s.params.quarter ((s.p1 + s.ptX).toNat % 16384)) +
          highHalf (wromWord s.params.quarter ((s.p2 + s.ptY).toNat % 16384))
        done := true }) ∧
  (∀ s : State, s.isBusy = true → exec .cstep s = .next { s with err := true, errcode := .busyReject }) ∧
  (∀ w : Word, opField w = 0x09 → decode w = if w = 0x00000009 then .ok .cstep else .error .reservedField)

/-- 43_compositor.md R166, with R160, R161, R163 and 20_memory.md R65: the one word written, and every other byte as it
was. -/
def Obligations.PlotWritesOnePackedWord : Prop :=
  (∀ (s : State) (px py addr : Word), s.seq = .idle →
    px = (s.ptX * s.scalemul).sshiftRight 14 + s.xpan → py = (s.ptY * s.scalemul).sshiftRight 14 + s.ypan →
    addr = s.fbBase s.active + BitVec.ofNat 32 (4 * (py.toNat * (s.params.width / 2) + px.toNat / 2)) →
    (0 ≤ px.toInt ∧ px.toInt < s.params.width ∧ 0 ≤ py.toInt ∧ py.toInt < s.params.height →
      ∃ m, exec .plot s = .next { s with mem := m, done := true } ∧
        m.readWord addr = pack (s.mem.readWord addr) px s.ptColor ∧
        ∀ a : Word, a ≠ addr → a ≠ addr + 1 → a ≠ addr + 2 → a ≠ addr + 3 → m.readByte a = s.mem.readByte a) ∧
    (¬ (0 ≤ px.toInt ∧ px.toInt < s.params.width ∧ 0 ≤ py.toInt ∧ py.toInt < s.params.height) →
      exec .plot s = .next { s with done := true })) ∧
  (∀ s : State, s.isBusy = true → exec .plot s = .next { s with err := true, errcode := .busyReject }) ∧
  (∀ w : Word, opField w = 0x06 → decode w = if w = 0x00000006 then .ok .plot else .error .reservedField)

/-- 43_compositor.md R164, R165: every word of the bank holds BG_WORD, every other byte is as it was. -/
def Obligations.ClearFillsTheBank : Prop :=
  (∀ (s : State) (b : Nat), s.params.Admissible → s.seq = .idle → b < 2 →
    ∃ m, exec (.clear b) s = .next { s with mem := m, done := true } ∧
      (∀ c, c < s.params.width / 2 * s.params.height →
        m.readWord (s.fbBase (BitVec.ofNat 1 b) + BitVec.ofNat 32 (4 * c)) = s.params.bgWord) ∧
      ∀ a : Word, s.inBank (BitVec.ofNat 1 b) a = false → m.readByte a = s.mem.readByte a) ∧
  (∀ (s : State) (b : Nat), s.isBusy = true →
    exec (.clear b) s = .next { s with err := true, errcode := .busyReject }) ∧
  (∀ w : Word, opField w = 0x01 → decode w =
    if w.extractLsb' 9 23 = 0 then .ok (.clear (w.extractLsb' 8 1).toNat) else .error .reservedField)

/-- 42_curve_engine.md R147: the two nested loops of the pseudocode, every point plotted in order; no register but
STATUS.DONE is written. -/
def Obligations.RenderRunsTheFrame : Prop :=
  (∀ s : State, s.seq = .idle →
    exec .render s = .next
      { s with
        mem := (List.range 64).foldl (fun m k =>
          ((List.range 1024).foldl (fun (acc : Word × Word × Memory) j =>
            let p := curveStep s.params.quarter (s.phase + BitVec.ofNat 32 (k * 278))
              (s.phase + BitVec.ofNat 32 (k * 10430)) acc.1 acc.2.1
            (p.1, p.2, s.plotPoint s.active acc.2.2 ⟨p.1, p.2, gromEntry (k * 1024 + j)⟩)) (0, 0, m)).2.2) s.mem
        done := true }) ∧
  (∀ s : State, s.isBusy = true → exec .render s = .next { s with err := true, errcode := .busyReject }) ∧
  (∀ w : Word, opField w = 0x02 → decode w = if w = 0x00000002 then .ok .render else .error .reservedField)

/-- 44_frame_control.md R181: DRAW is the clear of the active bank, unless TRAILS, and then RENDER. -/
def Obligations.DrawClearsThenRenders : Prop :=
  (∀ s : State, s.seq = .idle → ∃ u t, (if s.trails = true then u = s else exec (.clear s.active.toNat) s = .next u) ∧
    exec .render u = .next t ∧ exec .draw s = .next t ∧ t = { s with mem := t.mem, done := true }) ∧
  (∀ s : State, s.isBusy = true → exec .draw s = .next { s with err := true, errcode := .busyReject }) ∧
  (∀ w : Word, opField w = 0x05 → decode w = if w = 0x00000005 then .ok .draw else .error .reservedField)

/-! ### The machine -/

/-- 30_encoding.md section 5 (SYNC): a submitted command word that decodes is run by the step, on the state with the
submission taken off the list, in an idle block; so the statements about exec reach a run (log entries 2, 11, 27). -/
def Obligations.StepRunsTheDecodedCommand : Prop :=
  (∀ (s : State) (w : Word) (i : Instr) (rest : List Event), s.seq = .idle → s.pending = .sync w :: rest →
    decode w = .ok i → step s = exec i { s with pending := rest }) ∧
  (∀ (s : State) (w : Word) (i : Instr), decode w = .ok i →
    step (s.withFetchWord 32 w.toNat) = exec i { s with seq := .idle })

/-- 10_state.md section 4, 20_memory.md section 5: run one access at a time with no other agent in between, an
accepted command reaches exactly the state its meaning gives (log entries 2, 3). -/
def Obligations.EngineTurnsReachTheMeaning : Prop :=
  ∀ (s : State) (i : Instr), s.params.Admissible → s.seq = .idle →
    ∃ n, n ≤ s.params.width / 2 * s.params.height + 131139 ∧
      engineTurns n { s with seq := .busy i .start } = exec i s

/-- 70_reset_and_hazards.md section 4: every running command completes, from wherever in its pseudocode it is, within
a bounded number of engine steps. The spec leaves the number of steps open: the bound counts the model's engine steps
(DESIGN CHOICE, log entry 3). -/
def Obligations.EveryRunningCommandCompletes : Prop :=
  ∀ s : State, s.Inv → s.isBusy = true →
    ∃ n t, n ≤ s.params.width / 2 * s.params.height + 131139 ∧ engineTurns n s = .next t ∧
      t.seq = .idle ∧ t.done = true

/-- 20_memory.md section 5, 42_curve_engine.md section 2, 43_compositor.md section 1: the engine's accesses, one after
another in the order of the pseudocode: a clear from word 0 upwards with BG_WORD, points in ascending g, each read
before its write, and each write at an aligned word of the bank the running command writes. That one engine step makes
at most one access, and which moves between accesses are steps, is the model's choice (DESIGN CHOICE, log entry 3). -/
def Obligations.EngineStepWritesAtMostOneBankWord : Prop :=
  ∀ (s t : State) (i : Instr) (p : Progress), s.Inv → s.seq = .busy i p → engineTurn s = .next t →
    match p with
    | .start => t.mem = s.mem ∧
        (∀ b, i = .clear b → t = s.setSeq (.busy i (.clearing (BitVec.ofNat 1 b) 0))) ∧
        (i = .draw → s.trails = false → t = s.setSeq (.busy i (.clearing s.active 0))) ∧
        (i = .render ∨ (i = .draw ∧ s.trails = true) →
          t = s.setSeq (.busy i (.rendering
            { bank := s.active, ip1 := s.phase, ip2 := s.phase, ix := 0, iy := 0, k := 0, j := 0, g := 0 }))) ∧
        (i = .plot → t = s.setSeq (.busy i
          (match s.plotTarget s.active s.ptX s.ptY with
            | none => .finish
            | some (addr, px) => .writing { addr := addr, px := px, color := s.ptColor, w := s.mem.readWord addr }))) ∧
        (s.targetBank i = none → t.seq = .idle)
    | .clearing bank c => s.targetBank i = some bank ∧
        if c.toNat < s.params.width / 2 * s.params.height then
          (s.bankWordAddr bank c.toNat).toNat % 4 = 0 ∧ s.isBankWord bank (s.bankWordAddr bank c.toNat) = true ∧
          t = { s with
            mem := s.mem.writeWord (s.bankWordAddr bank c.toNat) s.params.bgWord
            seq := .busy i (.clearing bank (c + 1)) }
        else if i = .draw then
          t = s.setSeq (.busy i (.rendering
            { bank := bank, ip1 := s.phase, ip2 := s.phase, ix := 0, iy := 0, k := 0, j := 0, g := 0 }))
        else t = { s with done := true, seq := .idle }
    | .rendering f => s.targetBank i = some f.bank ∧
        if f.k.toNat < 64 then
          if f.j.toNat < 1024 then
            ∃ x y, (x, y) = curveStep s.params.quarter f.ip1 f.ip2 f.ix f.iy ∧
              t = s.setSeq (.busy i
                (match s.plotTarget f.bank x y with
                  | none => .rendering { f with ix := x, iy := y, j := f.j + 1, g := f.g + 1 }
                  | some (addr, px) => .plotting { f with ix := x, iy := y, j := f.j + 1, g := f.g + 1 }
                      { addr := addr, px := px, color := gromEntry f.g.toNat, w := s.mem.readWord addr }))
          else t = s.setSeq (.busy i (.rendering
            { f with ip1 := f.ip1 + 278, ip2 := f.ip2 + 10430, ix := 0, iy := 0, k := f.k + 1, j := 0 }))
        else t = { s with done := true, seq := .idle }
    | .plotting f a => s.targetBank i = some f.bank ∧ a.addr.toNat % 4 = 0 ∧ s.isBankWord f.bank a.addr = true ∧
        t = { s with mem := s.mem.writeWord a.addr (pack a.w a.px a.color), seq := .busy i (.rendering f) }
    | .writing a => s.targetBank i = some s.active ∧ a.addr.toNat % 4 = 0 ∧ s.isBankWord s.active a.addr = true ∧
        t = { s with mem := s.mem.writeWord a.addr (pack a.w a.px a.color), seq := .busy i .finish }
    | .finish => t = { s with done := true, seq := .idle }

/-- The invariant of the model: admissible parameters, memory in its canonical form, the sequencer in a state of its
pseudocode (slot k's accumulators t + 278 k and t + 10430 k, g = 1024 k + j, accesses inside the bank). Every step
keeps it, whoever moves. -/
def Obligations.StepKeepsTheInvariant : Prop :=
  ∀ s t : State, s.Inv → step s = .next t → t.Inv

/-- The invariant holds right after reset. -/
def Obligations.ResetMeetsTheInvariant : Prop := State.reset.Inv

/-- 10_state.md section 2 (STATUS): ACTIVE and PRESENTED change only by PRESENT and by reset. -/
def Obligations.BanksChangeOnlyByPresentOrReset : Prop :=
  ∀ s t : State, step s = .next t → (t.active ≠ s.active ∨ t.presented ≠ s.presented) →
    s.resetNext ∨ s.runsNext .present

/-- 10_state.md section 2 (PHASE, SPEED): PHASE changes only by ADVANCE, a host write or reset; SPEED only by a host
write or reset. -/
def Obligations.PhaseAndSpeedChangeOnlyByTheirWriters : Prop :=
  ∀ s t : State, step s = .next t →
    (t.phase ≠ s.phase → s.resetNext ∨ s.runsNext .advance ∨ ∃ v, s.writeNext 0x0C v ∧ t.phase = v) ∧
    (t.speed ≠ s.speed → s.resetNext ∨ ∃ v, s.writeNext 0x10 v ∧ t.speed = v)

/-- 70_reset_and_hazards.md section 3 (ROM immutability): no step, reset included, changes WIDTH, HEIGHT, BG_WORD or
QUARTER, and so no ROM word. -/
def Obligations.RomsAndParametersNeverChange : Prop :=
  ∀ s t : State, step s = .next t → t.params = s.params ∧
    ∀ i, wromWord t.params.quarter i = wromWord s.params.quarter i

/-- 60_exceptions.md section 1: no step traps; the only access without a meaning is a register access that 10_state.md R40
refuses. -/
def Obligations.BlockNeverTraps : Prop :=
  ∀ s : State, (∃ t, step s = .next t) ∨
    (step s = .refused .registerAccess ∧ ∃ e rest, s.pending = e :: rest ∧
      ((∃ off size v, e = .write off size v ∧ (size ≠ .word ∨ off.toNat % 4 ≠ 0)) ∨
       (∃ off size, e = .read off size ∧ (size ≠ .word ∨ off.toNat % 4 ≠ 0)) ∨
       (∃ off v, e = .writeWithEngine off v ∧ off.toNat % 4 ≠ 0)))

/-! ### The host reference model -/

/-- 60_exceptions.md section 5: the reset chord restores the initial state whatever else is pressed, keeps savedSpeed,
and suppresses the freeze and trails edges of its frame (log entries 18, 33). The product that scale is the rounding of
is (HEIGHT/2) * pi to 15 decimals; and for an even HEIGHT the integer fields are the block's reset values, scaleMul by
the real product, which the spec derives (log entry 35). -/
def Obligations.HostResetChordRestores : Prop :=
  (∀ (p : Params) (inp : HostInput) (h : HostCtl), inp.chord = true →
    hostUpdate p inp h =
      { panX := ⟨p.width, 2⟩, panY := ⟨p.height, 2⟩, scale := hostScaleReset p.height, speed := 8,
        trails := false, justReset := true, savedSpeed := h.savedSpeed }) ∧
  (∀ height : Nat, height ≤ 32768 → (height % 2 = 1 → hostScaleReset height = Config.hostRound (hostScaleExact height)) ∧
    |((hostScaleExact height).num : ℝ) / (hostScaleExact height).den - (height : ℝ) / 2 * Real.pi| < 1 / 10 ^ 15) ∧
  (∀ (p : Params) (inp : HostInput) (h : HostCtl), p.Admissible → p.height % 2 = 0 → inp.chord = true →
    hostTrunc (hostUpdate p inp h).scale = ⌊(p.height : ℝ) / 2 * Real.pi⌋ ∧
    BitVec.ofInt 32 (hostTrunc (hostUpdate p inp h).panX) = (State.resetWith p).xpan ∧
    BitVec.ofInt 32 (hostTrunc (hostUpdate p inp h).panY) = (State.resetWith p).ypan ∧
    BitVec.ofInt 32 (hostTrunc (hostUpdate p inp h).scale) = (State.resetWith p).scalemul ∧
    BitVec.ofInt 32 (hostUpdate p inp h).speed = (State.resetWith p).speed ∧
    (hostUpdate p inp h).trails = (State.resetWith p).trails)

/-- 60_exceptions.md section 5: the speed edges, then the freeze toggle with its one saved speed, and the trails
toggle; in the frame of a chord justReset suppresses both toggles (log entries 21, 33). Speed-up and slow-down edges of
one frame cancel (DESIGN CHOICE, log entry 22). -/
def Obligations.HostFreezeAndTrailsToggle : Prop :=
  ∀ (p : Params) (inp : HostInput) (h : HostCtl) (v : Int),
    v = h.speed + (if inp.speedUp = true then 1 else 0) - (if inp.slowDown = true then 1 else 0) →
    (inp.chord = false → inp.freeze = false →
      (hostUpdate p inp h).speed = v ∧ (hostUpdate p inp h).savedSpeed = h.savedSpeed) ∧
    (inp.chord = false → inp.freeze = true → v ≠ 0 →
      (hostUpdate p inp h).speed = 0 ∧ (hostUpdate p inp h).savedSpeed = v) ∧
    (inp.chord = false → inp.freeze = true → v = 0 →
      (hostUpdate p inp h).speed = h.savedSpeed ∧ (hostUpdate p inp h).savedSpeed = h.savedSpeed) ∧
    (inp.chord = false → (hostUpdate p inp h).trails = (if inp.trails = true then !h.trails else h.trails)) ∧
    (inp.chord = true → (hostUpdate p inp h).speed = 8 ∧ (hostUpdate p inp h).trails = false ∧
      (hostUpdate p inp h).savedSpeed = h.savedSpeed)

/-- 60_exceptions.md section 5: the host's frame update ends with the integer fields, SPEED and TRAILS written to the
idle block, and nothing else changed (log entries 1, 11, 18, 34). The written words are the truncated values modulo
2^32 (DESIGN CHOICE, log entries 21 and 29). -/
def Obligations.HostFrameWritesTheBlock : Prop :=
  ∀ (s : State) (inp : HostInput) (rest : List Event) (h : HostCtl), s.seq = .idle →
    s.pending = .hostFrame inp :: rest → h = hostUpdate s.params inp s.host →
    Host.Core.run core 7 s = .next
      { s with
        host := h
        pending := rest
        xpan := BitVec.ofInt 32 (h.panX.num.tdiv h.panX.den)
        ypan := BitVec.ofInt 32 (h.panY.num.tdiv h.panY.den)
        scalemul := BitVec.ofInt 32 (h.scale.num.tdiv h.scale.den)
        speed := BitVec.ofInt 32 h.speed
        trails := h.trails }
end

