-- ==== Sys2Proof/Laws/Controller.lean ====
section
/-!
SUPPORT. What the pan and zoom steps of the host leave alone, and the integer part of its initial scale.
-/
namespace Sys2Proof.Machine

@[simp] theorem zoomStep_speed (p : Params) (held zoomIn : Bool) (h : HostCtl) :
    (zoomStep p held zoomIn h).speed = h.speed := by
  unfold zoomStep; split <;> rfl

@[simp] theorem zoomStep_savedSpeed (p : Params) (held zoomIn : Bool) (h : HostCtl) :
    (zoomStep p held zoomIn h).savedSpeed = h.savedSpeed := by
  unfold zoomStep; split <;> rfl

@[simp] theorem zoomStep_trails (p : Params) (held zoomIn : Bool) (h : HostCtl) :
    (zoomStep p held zoomIn h).trails = h.trails := by
  unfold zoomStep; split <;> rfl

@[simp] theorem zoomStep_justReset (p : Params) (held zoomIn : Bool) (h : HostCtl) :
    (zoomStep p held zoomIn h).justReset = h.justReset := by
  unfold zoomStep; split <;> rfl

@[simp] theorem hostPan_speed (inp : HostInput) (h : HostCtl) : (hostPan inp h).speed = h.speed := rfl
@[simp] theorem hostPan_savedSpeed (inp : HostInput) (h : HostCtl) : (hostPan inp h).savedSpeed = h.savedSpeed := rfl
@[simp] theorem hostPan_trails (inp : HostInput) (h : HostCtl) : (hostPan inp h).trails = h.trails := rfl
@[simp] theorem hostPan_justReset (inp : HostInput) (h : HostCtl) : (hostPan inp h).justReset = h.justReset := rfl

@[simp] theorem hostZoom_speed (p : Params) (inp : HostInput) (h : HostCtl) : (hostZoom p inp h).speed = h.speed := by
  simp [hostZoom]

@[simp] theorem hostZoom_savedSpeed (p : Params) (inp : HostInput) (h : HostCtl) :
    (hostZoom p inp h).savedSpeed = h.savedSpeed := by
  simp [hostZoom]

@[simp] theorem hostZoom_trails (p : Params) (inp : HostInput) (h : HostCtl) :
    (hostZoom p inp h).trails = h.trails := by
  simp [hostZoom]

@[simp] theorem hostZoom_justReset (p : Params) (inp : HostInput) (h : HostCtl) :
    (hostZoom p inp h).justReset = h.justReset := by
  simp [hostZoom]

/-- HOST_FLOAT's rounding keeps the integer part of the initial scale for an even HEIGHT (60_exceptions.md R230). -/
theorem hostTrunc_hostScaleReset {height : Nat} (h : height % 2 = 0) :
    hostTrunc (hostScaleReset height) = hostTrunc (hostScaleExact height) := by
  unfold hostScaleReset
  simp only
  split
  · rename_i hr
    exact hr.resolve_left (by omega)
  · rfl

end Sys2Proof.Machine
end

