-- ==== Sys2Proof/Laws/Memory.lean ====
section
/-!
SUPPORT. The laws of system memory: a read after a write, writes elsewhere, and the canonical form, which every memory
operation keeps.
-/
namespace Sys2Proof.Machine

/-! ### The list of written bytes -/

@[simp] theorem Memory.get?_nil (a : Nat) : Memory.get? [] a = none := rfl

theorem Memory.get?_insert_self (m : Memory) (a : Nat) (v : Byte) : (m.insert a v).get? a = some v := by
  induction m with
  | nil => simp [Memory.insert, Memory.get?]
  | cons c m ih =>
    obtain ⟨k, u⟩ := c
    simp only [Memory.insert]
    split
    · simp [Memory.get?]
    · split
      · simp [Memory.get?]
      · rename_i h
        simp [Memory.get?, Ne.symm h, ih]

theorem Memory.get?_insert_ne (m : Memory) {a b : Nat} (v : Byte) (h : b ≠ a) :
    (m.insert a v).get? b = m.get? b := by
  induction m with
  | nil => simp [Memory.insert, Memory.get?, Ne.symm h]
  | cons c m ih =>
    obtain ⟨k, u⟩ := c
    simp only [Memory.insert]
    split
    · simp [Memory.get?, Ne.symm h]
    · split
      · rename_i hak
        subst hak
        simp [Memory.get?, Ne.symm h]
      · simp [Memory.get?, ih]

/-- Writing back the value a written address holds changes nothing. -/
theorem Memory.insert_get?_self (m : Memory) {a : Nat} {v : Byte} (hm : m.wf = true) (h : m.get? a = some v) :
    m.insert a v = m := by
  induction m with
  | nil => simp at h
  | cons c m ih =>
    obtain ⟨k, u⟩ := c
    simp only [Memory.get?] at h
    split at h
    · rename_i hk
      subst hk
      simp only [Option.some.injEq] at h
      simp [Memory.insert, h]
    · rename_i hk
      have hwf : Memory.wf m = true := by
        cases m with
        | nil => rfl
        | cons d m => exact (by simpa [Memory.wf] using hm : _ ∧ _).2
      have hlt : ¬ a < k := by
        intro hak
        have aux : ∀ (m : Memory) (k : Nat) (u : Byte), Memory.wf ((k, u) :: m) = true → a < k → m.get? a = none := by
          intro m
          induction m with
          | nil => intros; rfl
          | cons d m ihm =>
            intro k u hw hak
            obtain ⟨l, x⟩ := d
            simp only [Memory.wf, Bool.and_eq_true, decide_eq_true_eq] at hw
            have hne : l ≠ a := by omega
            simp only [Memory.get?, if_neg hne]
            exact ihm l x hw.2 (by omega)
        rw [aux m k u hm hak] at h
        exact absurd h (by simp)
      simp only [Memory.insert, if_neg hlt, if_neg (Ne.symm hk : ¬ a = k), ih hwf h]

/-! ### Bytes -/

@[simp] theorem Memory.readByte_writeByte_self (m : Memory) (a : Word) (v : Byte) :
    (m.writeByte a v).readByte a = v := by
  simp [Memory.readByte, Memory.writeByte, Memory.get?_insert_self]

theorem Memory.readByte_writeByte_ne (m : Memory) {a b : Word} (v : Byte) (h : b ≠ a) :
    (m.writeByte a v).readByte b = m.readByte b := by
  have h' : b.toNat ≠ a.toNat := fun e => h (BitVec.eq_of_toNat_eq e)
  simp [Memory.readByte, Memory.writeByte, Memory.get?_insert_ne m v h']

theorem Memory.readByte_writeByte (m : Memory) (a b : Word) (v : Byte) :
    (m.writeByte a v).readByte b = if b = a then v else m.readByte b := by
  split
  · rename_i h
    subst h
    simp
  · rename_i h
    exact m.readByte_writeByte_ne v h

/-- A word write leaves every byte outside the word as it was. -/
theorem Memory.readByte_writeWord_outside (m : Memory) {a b : Word} (v : Word)
    (h0 : b ≠ a) (h1 : b ≠ a + 1) (h2 : b ≠ a + 2) (h3 : b ≠ a + 3) :
    (m.writeWord a v).readByte b = m.readByte b := by
  simp only [Memory.writeWord, Memory.readByte_writeByte, if_neg h0, if_neg h1, if_neg h2, if_neg h3]

/-! ### The canonical form -/

/-- The first listed address, if any, is above `k`. -/
theorem Memory.wf_cons_iff (k : Nat) (v : Byte) (m : Memory) :
    Memory.wf ((k, v) :: m) = true ↔ (match m with | [] => k < 2 ^ 32 | (l, _) :: _ => k < l) ∧ Memory.wf m = true := by
  cases m with
  | nil => simp [Memory.wf]
  | cons d m => simp [Memory.wf]

theorem Memory.wf_insert (m : Memory) {a : Nat} (v : Byte) (ha : a < 2 ^ 32) (h : m.wf = true) :
    (m.insert a v).wf = true := by
  induction m with
  | nil => simpa [Memory.insert, Memory.wf] using ha
  | cons c m ih =>
    obtain ⟨k, u⟩ := c
    have hm := (Memory.wf_cons_iff k u m).1 h
    simp only [Memory.insert]
    split
    · rename_i hak
      exact (Memory.wf_cons_iff _ _ _).2 ⟨hak, h⟩
    · split
      · rename_i hak
        subst hak
        exact (Memory.wf_cons_iff _ _ _).2 hm
      · refine (Memory.wf_cons_iff _ _ _).2 ⟨?_, ih hm.2⟩
        cases m with
        | nil => simp only [Memory.insert]; omega
        | cons d m =>
          obtain ⟨l, x⟩ := d
          have hkl : k < l := hm.1
          have hka : k < a := by omega
          by_cases h1 : a < l
          · simpa [Memory.insert, h1] using hka
          · by_cases h2 : a = l
            · simpa [Memory.insert, h2] using hkl
            · simpa [Memory.insert, h1, h2] using hkl

theorem Memory.wf_writeByte (m : Memory) (a : Word) (v : Byte) (h : m.wf = true) : (m.writeByte a v).wf = true :=
  m.wf_insert v a.isLt h

theorem Memory.wf_writeWord (m : Memory) (a v : Word) (h : m.wf = true) : (m.writeWord a v).wf = true :=
  Memory.wf_writeByte _ _ _ (Memory.wf_writeByte _ _ _ (Memory.wf_writeByte _ _ _ (m.wf_writeByte _ _ h)))

theorem Memory.wf_store (m : Memory) (a : Word) (size : Size) (v : Word) (h : m.wf = true) :
    (m.store a size v).wf = true := by
  cases size with
  | byte => exact m.wf_writeByte _ _ h
  | half => exact Memory.wf_writeByte _ _ _ (m.wf_writeByte _ _ h)
  | word => exact m.wf_writeWord _ _ h

/-- Reset memory lists nothing. -/
theorem State.reset_mem : State.reset.mem = [] := rfl

theorem State.reset_mem_wf : State.reset.mem.wf = true := rfl

end Sys2Proof.Machine
end

