-- ==== Sys2Proof/Laws/State.lean ====
section
/-!
SUPPORT. One lemma per field per named update of the state, so that no proof unfolds a record update.
-/
namespace Sys2Proof.Machine

variable (s : State)

/-! ### reject -/

@[simp] theorem State.reject_done (c : ErrCode) : (s.reject c).done = s.done := rfl
@[simp] theorem State.reject_err (c : ErrCode) : (s.reject c).err = true := rfl
@[simp] theorem State.reject_errcode (c : ErrCode) : (s.reject c).errcode = c := rfl
@[simp] theorem State.reject_active (c : ErrCode) : (s.reject c).active = s.active := rfl
@[simp] theorem State.reject_presented (c : ErrCode) : (s.reject c).presented = s.presented := rfl
@[simp] theorem State.reject_trails (c : ErrCode) : (s.reject c).trails = s.trails := rfl
@[simp] theorem State.reject_irqEn (c : ErrCode) : (s.reject c).irqEn = s.irqEn := rfl
@[simp] theorem State.reject_phase (c : ErrCode) : (s.reject c).phase = s.phase := rfl
@[simp] theorem State.reject_speed (c : ErrCode) : (s.reject c).speed = s.speed := rfl
@[simp] theorem State.reject_xpan (c : ErrCode) : (s.reject c).xpan = s.xpan := rfl
@[simp] theorem State.reject_ypan (c : ErrCode) : (s.reject c).ypan = s.ypan := rfl
@[simp] theorem State.reject_scalemul (c : ErrCode) : (s.reject c).scalemul = s.scalemul := rfl
@[simp] theorem State.reject_ptX (c : ErrCode) : (s.reject c).ptX = s.ptX := rfl
@[simp] theorem State.reject_ptY (c : ErrCode) : (s.reject c).ptY = s.ptY := rfl
@[simp] theorem State.reject_ptColor (c : ErrCode) : (s.reject c).ptColor = s.ptColor := rfl
@[simp] theorem State.reject_lookup (c : ErrCode) : (s.reject c).lookup = s.lookup := rfl
@[simp] theorem State.reject_p1 (c : ErrCode) : (s.reject c).p1 = s.p1 := rfl
@[simp] theorem State.reject_p2 (c : ErrCode) : (s.reject c).p2 = s.p2 := rfl
@[simp] theorem State.reject_fb0 (c : ErrCode) : (s.reject c).fb0 = s.fb0 := rfl
@[simp] theorem State.reject_fb1 (c : ErrCode) : (s.reject c).fb1 = s.fb1 := rfl
@[simp] theorem State.reject_seq (c : ErrCode) : (s.reject c).seq = s.seq := rfl
@[simp] theorem State.reject_mem (c : ErrCode) : (s.reject c).mem = s.mem := rfl
@[simp] theorem State.reject_params (c : ErrCode) : (s.reject c).params = s.params := rfl
@[simp] theorem State.reject_pending (c : ErrCode) : (s.reject c).pending = s.pending := rfl
@[simp] theorem State.reject_busData (c : ErrCode) : (s.reject c).busData = s.busData := rfl
@[simp] theorem State.reject_host (c : ErrCode) : (s.reject c).host = s.host := rfl

/-! ### ackStatus -/

@[simp] theorem State.ackStatus_done (v : Word) : (s.ackStatus v).done = (s.done && !v.getLsbD 1) := rfl
@[simp] theorem State.ackStatus_err (v : Word) : (s.ackStatus v).err = (s.err && !v.getLsbD 2) := rfl
@[simp] theorem State.ackStatus_errcode (v : Word) : (s.ackStatus v).errcode = (if v.getLsbD 2 then .noError else s.errcode) := rfl
@[simp] theorem State.ackStatus_active (v : Word) : (s.ackStatus v).active = s.active := rfl
@[simp] theorem State.ackStatus_presented (v : Word) : (s.ackStatus v).presented = s.presented := rfl
@[simp] theorem State.ackStatus_trails (v : Word) : (s.ackStatus v).trails = s.trails := rfl
@[simp] theorem State.ackStatus_irqEn (v : Word) : (s.ackStatus v).irqEn = s.irqEn := rfl
@[simp] theorem State.ackStatus_phase (v : Word) : (s.ackStatus v).phase = s.phase := rfl
@[simp] theorem State.ackStatus_speed (v : Word) : (s.ackStatus v).speed = s.speed := rfl
@[simp] theorem State.ackStatus_xpan (v : Word) : (s.ackStatus v).xpan = s.xpan := rfl
@[simp] theorem State.ackStatus_ypan (v : Word) : (s.ackStatus v).ypan = s.ypan := rfl
@[simp] theorem State.ackStatus_scalemul (v : Word) : (s.ackStatus v).scalemul = s.scalemul := rfl
@[simp] theorem State.ackStatus_ptX (v : Word) : (s.ackStatus v).ptX = s.ptX := rfl
@[simp] theorem State.ackStatus_ptY (v : Word) : (s.ackStatus v).ptY = s.ptY := rfl
@[simp] theorem State.ackStatus_ptColor (v : Word) : (s.ackStatus v).ptColor = s.ptColor := rfl
@[simp] theorem State.ackStatus_lookup (v : Word) : (s.ackStatus v).lookup = s.lookup := rfl
@[simp] theorem State.ackStatus_p1 (v : Word) : (s.ackStatus v).p1 = s.p1 := rfl
@[simp] theorem State.ackStatus_p2 (v : Word) : (s.ackStatus v).p2 = s.p2 := rfl
@[simp] theorem State.ackStatus_fb0 (v : Word) : (s.ackStatus v).fb0 = s.fb0 := rfl
@[simp] theorem State.ackStatus_fb1 (v : Word) : (s.ackStatus v).fb1 = s.fb1 := rfl
@[simp] theorem State.ackStatus_seq (v : Word) : (s.ackStatus v).seq = s.seq := rfl
@[simp] theorem State.ackStatus_mem (v : Word) : (s.ackStatus v).mem = s.mem := rfl
@[simp] theorem State.ackStatus_params (v : Word) : (s.ackStatus v).params = s.params := rfl
@[simp] theorem State.ackStatus_pending (v : Word) : (s.ackStatus v).pending = s.pending := rfl
@[simp] theorem State.ackStatus_busData (v : Word) : (s.ackStatus v).busData = s.busData := rfl
@[simp] theorem State.ackStatus_host (v : Word) : (s.ackStatus v).host = s.host := rfl

/-! ### complete -/

@[simp] theorem State.complete_done : (s.complete).done = true := rfl
@[simp] theorem State.complete_err : (s.complete).err = s.err := rfl
@[simp] theorem State.complete_errcode : (s.complete).errcode = s.errcode := rfl
@[simp] theorem State.complete_active : (s.complete).active = s.active := rfl
@[simp] theorem State.complete_presented : (s.complete).presented = s.presented := rfl
@[simp] theorem State.complete_trails : (s.complete).trails = s.trails := rfl
@[simp] theorem State.complete_irqEn : (s.complete).irqEn = s.irqEn := rfl
@[simp] theorem State.complete_phase : (s.complete).phase = s.phase := rfl
@[simp] theorem State.complete_speed : (s.complete).speed = s.speed := rfl
@[simp] theorem State.complete_xpan : (s.complete).xpan = s.xpan := rfl
@[simp] theorem State.complete_ypan : (s.complete).ypan = s.ypan := rfl
@[simp] theorem State.complete_scalemul : (s.complete).scalemul = s.scalemul := rfl
@[simp] theorem State.complete_ptX : (s.complete).ptX = s.ptX := rfl
@[simp] theorem State.complete_ptY : (s.complete).ptY = s.ptY := rfl
@[simp] theorem State.complete_ptColor : (s.complete).ptColor = s.ptColor := rfl
@[simp] theorem State.complete_lookup : (s.complete).lookup = s.lookup := rfl
@[simp] theorem State.complete_p1 : (s.complete).p1 = s.p1 := rfl
@[simp] theorem State.complete_p2 : (s.complete).p2 = s.p2 := rfl
@[simp] theorem State.complete_fb0 : (s.complete).fb0 = s.fb0 := rfl
@[simp] theorem State.complete_fb1 : (s.complete).fb1 = s.fb1 := rfl
@[simp] theorem State.complete_seq : (s.complete).seq = .idle := rfl
@[simp] theorem State.complete_mem : (s.complete).mem = s.mem := rfl
@[simp] theorem State.complete_params : (s.complete).params = s.params := rfl
@[simp] theorem State.complete_pending : (s.complete).pending = s.pending := rfl
@[simp] theorem State.complete_busData : (s.complete).busData = s.busData := rfl
@[simp] theorem State.complete_host : (s.complete).host = s.host := rfl

/-! ### setMem -/

@[simp] theorem State.setMem_done (m : Memory) : (s.setMem m).done = s.done := rfl
@[simp] theorem State.setMem_err (m : Memory) : (s.setMem m).err = s.err := rfl
@[simp] theorem State.setMem_errcode (m : Memory) : (s.setMem m).errcode = s.errcode := rfl
@[simp] theorem State.setMem_active (m : Memory) : (s.setMem m).active = s.active := rfl
@[simp] theorem State.setMem_presented (m : Memory) : (s.setMem m).presented = s.presented := rfl
@[simp] theorem State.setMem_trails (m : Memory) : (s.setMem m).trails = s.trails := rfl
@[simp] theorem State.setMem_irqEn (m : Memory) : (s.setMem m).irqEn = s.irqEn := rfl
@[simp] theorem State.setMem_phase (m : Memory) : (s.setMem m).phase = s.phase := rfl
@[simp] theorem State.setMem_speed (m : Memory) : (s.setMem m).speed = s.speed := rfl
@[simp] theorem State.setMem_xpan (m : Memory) : (s.setMem m).xpan = s.xpan := rfl
@[simp] theorem State.setMem_ypan (m : Memory) : (s.setMem m).ypan = s.ypan := rfl
@[simp] theorem State.setMem_scalemul (m : Memory) : (s.setMem m).scalemul = s.scalemul := rfl
@[simp] theorem State.setMem_ptX (m : Memory) : (s.setMem m).ptX = s.ptX := rfl
@[simp] theorem State.setMem_ptY (m : Memory) : (s.setMem m).ptY = s.ptY := rfl
@[simp] theorem State.setMem_ptColor (m : Memory) : (s.setMem m).ptColor = s.ptColor := rfl
@[simp] theorem State.setMem_lookup (m : Memory) : (s.setMem m).lookup = s.lookup := rfl
@[simp] theorem State.setMem_p1 (m : Memory) : (s.setMem m).p1 = s.p1 := rfl
@[simp] theorem State.setMem_p2 (m : Memory) : (s.setMem m).p2 = s.p2 := rfl
@[simp] theorem State.setMem_fb0 (m : Memory) : (s.setMem m).fb0 = s.fb0 := rfl
@[simp] theorem State.setMem_fb1 (m : Memory) : (s.setMem m).fb1 = s.fb1 := rfl
@[simp] theorem State.setMem_seq (m : Memory) : (s.setMem m).seq = s.seq := rfl
@[simp] theorem State.setMem_mem (m : Memory) : (s.setMem m).mem = m := rfl
@[simp] theorem State.setMem_params (m : Memory) : (s.setMem m).params = s.params := rfl
@[simp] theorem State.setMem_pending (m : Memory) : (s.setMem m).pending = s.pending := rfl
@[simp] theorem State.setMem_busData (m : Memory) : (s.setMem m).busData = s.busData := rfl
@[simp] theorem State.setMem_host (m : Memory) : (s.setMem m).host = s.host := rfl

/-! ### setSeq -/

@[simp] theorem State.setSeq_done (q : Seq) : (s.setSeq q).done = s.done := rfl
@[simp] theorem State.setSeq_err (q : Seq) : (s.setSeq q).err = s.err := rfl
@[simp] theorem State.setSeq_errcode (q : Seq) : (s.setSeq q).errcode = s.errcode := rfl
@[simp] theorem State.setSeq_active (q : Seq) : (s.setSeq q).active = s.active := rfl
@[simp] theorem State.setSeq_presented (q : Seq) : (s.setSeq q).presented = s.presented := rfl
@[simp] theorem State.setSeq_trails (q : Seq) : (s.setSeq q).trails = s.trails := rfl
@[simp] theorem State.setSeq_irqEn (q : Seq) : (s.setSeq q).irqEn = s.irqEn := rfl
@[simp] theorem State.setSeq_phase (q : Seq) : (s.setSeq q).phase = s.phase := rfl
@[simp] theorem State.setSeq_speed (q : Seq) : (s.setSeq q).speed = s.speed := rfl
@[simp] theorem State.setSeq_xpan (q : Seq) : (s.setSeq q).xpan = s.xpan := rfl
@[simp] theorem State.setSeq_ypan (q : Seq) : (s.setSeq q).ypan = s.ypan := rfl
@[simp] theorem State.setSeq_scalemul (q : Seq) : (s.setSeq q).scalemul = s.scalemul := rfl
@[simp] theorem State.setSeq_ptX (q : Seq) : (s.setSeq q).ptX = s.ptX := rfl
@[simp] theorem State.setSeq_ptY (q : Seq) : (s.setSeq q).ptY = s.ptY := rfl
@[simp] theorem State.setSeq_ptColor (q : Seq) : (s.setSeq q).ptColor = s.ptColor := rfl
@[simp] theorem State.setSeq_lookup (q : Seq) : (s.setSeq q).lookup = s.lookup := rfl
@[simp] theorem State.setSeq_p1 (q : Seq) : (s.setSeq q).p1 = s.p1 := rfl
@[simp] theorem State.setSeq_p2 (q : Seq) : (s.setSeq q).p2 = s.p2 := rfl
@[simp] theorem State.setSeq_fb0 (q : Seq) : (s.setSeq q).fb0 = s.fb0 := rfl
@[simp] theorem State.setSeq_fb1 (q : Seq) : (s.setSeq q).fb1 = s.fb1 := rfl
@[simp] theorem State.setSeq_seq (q : Seq) : (s.setSeq q).seq = q := rfl
@[simp] theorem State.setSeq_mem (q : Seq) : (s.setSeq q).mem = s.mem := rfl
@[simp] theorem State.setSeq_params (q : Seq) : (s.setSeq q).params = s.params := rfl
@[simp] theorem State.setSeq_pending (q : Seq) : (s.setSeq q).pending = s.pending := rfl
@[simp] theorem State.setSeq_busData (q : Seq) : (s.setSeq q).busData = s.busData := rfl
@[simp] theorem State.setSeq_host (q : Seq) : (s.setSeq q).host = s.host := rfl

/-! ### setPending -/

@[simp] theorem State.setPending_done (l : List Event) : (s.setPending l).done = s.done := rfl
@[simp] theorem State.setPending_err (l : List Event) : (s.setPending l).err = s.err := rfl
@[simp] theorem State.setPending_errcode (l : List Event) : (s.setPending l).errcode = s.errcode := rfl
@[simp] theorem State.setPending_active (l : List Event) : (s.setPending l).active = s.active := rfl
@[simp] theorem State.setPending_presented (l : List Event) : (s.setPending l).presented = s.presented := rfl
@[simp] theorem State.setPending_trails (l : List Event) : (s.setPending l).trails = s.trails := rfl
@[simp] theorem State.setPending_irqEn (l : List Event) : (s.setPending l).irqEn = s.irqEn := rfl
@[simp] theorem State.setPending_phase (l : List Event) : (s.setPending l).phase = s.phase := rfl
@[simp] theorem State.setPending_speed (l : List Event) : (s.setPending l).speed = s.speed := rfl
@[simp] theorem State.setPending_xpan (l : List Event) : (s.setPending l).xpan = s.xpan := rfl
@[simp] theorem State.setPending_ypan (l : List Event) : (s.setPending l).ypan = s.ypan := rfl
@[simp] theorem State.setPending_scalemul (l : List Event) : (s.setPending l).scalemul = s.scalemul := rfl
@[simp] theorem State.setPending_ptX (l : List Event) : (s.setPending l).ptX = s.ptX := rfl
@[simp] theorem State.setPending_ptY (l : List Event) : (s.setPending l).ptY = s.ptY := rfl
@[simp] theorem State.setPending_ptColor (l : List Event) : (s.setPending l).ptColor = s.ptColor := rfl
@[simp] theorem State.setPending_lookup (l : List Event) : (s.setPending l).lookup = s.lookup := rfl
@[simp] theorem State.setPending_p1 (l : List Event) : (s.setPending l).p1 = s.p1 := rfl
@[simp] theorem State.setPending_p2 (l : List Event) : (s.setPending l).p2 = s.p2 := rfl
@[simp] theorem State.setPending_fb0 (l : List Event) : (s.setPending l).fb0 = s.fb0 := rfl
@[simp] theorem State.setPending_fb1 (l : List Event) : (s.setPending l).fb1 = s.fb1 := rfl
@[simp] theorem State.setPending_seq (l : List Event) : (s.setPending l).seq = s.seq := rfl
@[simp] theorem State.setPending_mem (l : List Event) : (s.setPending l).mem = s.mem := rfl
@[simp] theorem State.setPending_params (l : List Event) : (s.setPending l).params = s.params := rfl
@[simp] theorem State.setPending_pending (l : List Event) : (s.setPending l).pending = l := rfl
@[simp] theorem State.setPending_busData (l : List Event) : (s.setPending l).busData = s.busData := rfl
@[simp] theorem State.setPending_host (l : List Event) : (s.setPending l).host = s.host := rfl

/-! ### plotWrite -/

@[simp] theorem State.plotWrite_done (p : PlotAccess) : (s.plotWrite p).done = s.done := rfl
@[simp] theorem State.plotWrite_err (p : PlotAccess) : (s.plotWrite p).err = s.err := rfl
@[simp] theorem State.plotWrite_errcode (p : PlotAccess) : (s.plotWrite p).errcode = s.errcode := rfl
@[simp] theorem State.plotWrite_active (p : PlotAccess) : (s.plotWrite p).active = s.active := rfl
@[simp] theorem State.plotWrite_presented (p : PlotAccess) : (s.plotWrite p).presented = s.presented := rfl
@[simp] theorem State.plotWrite_trails (p : PlotAccess) : (s.plotWrite p).trails = s.trails := rfl
@[simp] theorem State.plotWrite_irqEn (p : PlotAccess) : (s.plotWrite p).irqEn = s.irqEn := rfl
@[simp] theorem State.plotWrite_phase (p : PlotAccess) : (s.plotWrite p).phase = s.phase := rfl
@[simp] theorem State.plotWrite_speed (p : PlotAccess) : (s.plotWrite p).speed = s.speed := rfl
@[simp] theorem State.plotWrite_xpan (p : PlotAccess) : (s.plotWrite p).xpan = s.xpan := rfl
@[simp] theorem State.plotWrite_ypan (p : PlotAccess) : (s.plotWrite p).ypan = s.ypan := rfl
@[simp] theorem State.plotWrite_scalemul (p : PlotAccess) : (s.plotWrite p).scalemul = s.scalemul := rfl
@[simp] theorem State.plotWrite_ptX (p : PlotAccess) : (s.plotWrite p).ptX = s.ptX := rfl
@[simp] theorem State.plotWrite_ptY (p : PlotAccess) : (s.plotWrite p).ptY = s.ptY := rfl
@[simp] theorem State.plotWrite_ptColor (p : PlotAccess) : (s.plotWrite p).ptColor = s.ptColor := rfl
@[simp] theorem State.plotWrite_lookup (p : PlotAccess) : (s.plotWrite p).lookup = s.lookup := rfl
@[simp] theorem State.plotWrite_p1 (p : PlotAccess) : (s.plotWrite p).p1 = s.p1 := rfl
@[simp] theorem State.plotWrite_p2 (p : PlotAccess) : (s.plotWrite p).p2 = s.p2 := rfl
@[simp] theorem State.plotWrite_fb0 (p : PlotAccess) : (s.plotWrite p).fb0 = s.fb0 := rfl
@[simp] theorem State.plotWrite_fb1 (p : PlotAccess) : (s.plotWrite p).fb1 = s.fb1 := rfl
@[simp] theorem State.plotWrite_seq (p : PlotAccess) : (s.plotWrite p).seq = s.seq := rfl
@[simp] theorem State.plotWrite_mem (p : PlotAccess) : (s.plotWrite p).mem = (s.mem.writeWord p.addr (pack p.w p.px p.color)) := rfl
@[simp] theorem State.plotWrite_params (p : PlotAccess) : (s.plotWrite p).params = s.params := rfl
@[simp] theorem State.plotWrite_pending (p : PlotAccess) : (s.plotWrite p).pending = s.pending := rfl
@[simp] theorem State.plotWrite_busData (p : PlotAccess) : (s.plotWrite p).busData = s.busData := rfl
@[simp] theorem State.plotWrite_host (p : PlotAccess) : (s.plotWrite p).host = s.host := rfl

/-! ### applyReset -/

@[simp] theorem State.applyReset_done : (s.applyReset).done = false := rfl
@[simp] theorem State.applyReset_err : (s.applyReset).err = false := rfl
@[simp] theorem State.applyReset_errcode : (s.applyReset).errcode = .noError := rfl
@[simp] theorem State.applyReset_active : (s.applyReset).active = 0 := rfl
@[simp] theorem State.applyReset_presented : (s.applyReset).presented = 1 := rfl
@[simp] theorem State.applyReset_trails : (s.applyReset).trails = false := rfl
@[simp] theorem State.applyReset_irqEn : (s.applyReset).irqEn = false := rfl
@[simp] theorem State.applyReset_phase : (s.applyReset).phase = 0 := rfl
@[simp] theorem State.applyReset_speed : (s.applyReset).speed = 8 := rfl
@[simp] theorem State.applyReset_xpan : (s.applyReset).xpan = (xpanReset s.params) := rfl
@[simp] theorem State.applyReset_ypan : (s.applyReset).ypan = (ypanReset s.params) := rfl
@[simp] theorem State.applyReset_scalemul : (s.applyReset).scalemul = (scalemulReset s.params) := rfl
@[simp] theorem State.applyReset_ptX : (s.applyReset).ptX = 0 := rfl
@[simp] theorem State.applyReset_ptY : (s.applyReset).ptY = 0 := rfl
@[simp] theorem State.applyReset_ptColor : (s.applyReset).ptColor = 0 := rfl
@[simp] theorem State.applyReset_lookup : (s.applyReset).lookup = 0 := rfl
@[simp] theorem State.applyReset_p1 : (s.applyReset).p1 = 0 := rfl
@[simp] theorem State.applyReset_p2 : (s.applyReset).p2 = 0 := rfl
@[simp] theorem State.applyReset_fb0 : (s.applyReset).fb0 = 0 := rfl
@[simp] theorem State.applyReset_fb1 : (s.applyReset).fb1 = 0 := rfl
@[simp] theorem State.applyReset_seq : (s.applyReset).seq = .idle := rfl
@[simp] theorem State.applyReset_mem : (s.applyReset).mem = s.mem := rfl
@[simp] theorem State.applyReset_params : (s.applyReset).params = s.params := rfl
@[simp] theorem State.applyReset_pending : (s.applyReset).pending = s.pending := rfl
@[simp] theorem State.applyReset_busData : (s.applyReset).busData = s.busData := rfl
@[simp] theorem State.applyReset_host : (s.applyReset).host = s.host := rfl

end Sys2Proof.Machine
end

