-- ==== Sys2Proof/Laws/Ops.lean ====
section
/-!
SUPPORT. What each shared operation can do, said once: submitting and running a command, a turn of the engine, and
the memory effect of a plot, a clear and a rendered frame.
-/
namespace Sys2Proof.Machine

variable {s t : State}

/-! ### The sequencer -/

theorem State.isBusy_eq_true_iff : s.isBusy = true ↔ ∃ i p, s.seq = .busy i p := by
  unfold State.isBusy
  split <;> simp_all

theorem State.isBusy_eq_false_iff : s.isBusy = false ↔ s.seq = .idle := by
  unfold State.isBusy
  split <;> simp_all

theorem State.isBusy_of_idle (h : s.seq = .idle) : s.isBusy = false := State.isBusy_eq_false_iff.2 h

/-- An idle state is unchanged by putting its sequencer at idle. -/
theorem State.setSeq_idle_self (h : s.seq = .idle) : s.setSeq .idle = s := by
  cases s
  simp only at h
  subst h
  rfl

/-! ### Submitting a command -/

theorem submit_of_idle (h : s.seq = .idle) (effect : State → State) :
    s.submit effect = .next (effect s).complete := by
  simp [State.submit, State.isBusy_of_idle h]

theorem submit_of_busy (h : s.isBusy = true) (effect : State → State) :
    s.submit effect = .next (s.reject .busyReject) := by
  simp [State.submit, h]

/-- Every command is a submission of some effect. -/
theorem exec_eq_submit (i : Instr) : ∃ effect : State → State, ∀ s, exec i s = s.submit effect := by
  cases i <;> exact ⟨_, fun _ => rfl⟩

/-- A command is always answered with a next state: a rejection while another runs, its completion otherwise. -/
theorem exec_next (i : Instr) (s : State) : ∃ t, exec i s = .next t := by
  obtain ⟨effect, he⟩ := exec_eq_submit i
  by_cases hb : s.isBusy = true
  · exact ⟨_, by rw [he s, submit_of_busy hb]⟩
  · exact ⟨_, by rw [he s, submit_of_idle (State.isBusy_eq_false_iff.1 (by simpa using hb))]⟩

/-! ### Memory effects keep the canonical form -/

theorem plotPoint_wf (bank : Bank) (m : Memory) (pt : Point) (h : m.wf = true) :
    (s.plotPoint bank m pt).wf = true := by
  unfold State.plotPoint
  split
  · exact h
  · exact m.wf_writeWord _ _ h

theorem clearWords_wf (bank : Bank) (n c : Nat) (m : Memory) (h : m.wf = true) :
    (s.clearWords bank n c m).wf = true := by
  induction n generalizing c m with
  | zero => exact h
  | succ n ih => exact ih (c + 1) _ (m.wf_writeWord _ _ h)

theorem plotPoints_wf (bank : Bank) (l : List Point) (m : Memory) (h : m.wf = true) :
    (l.foldl (s.plotPoint bank) m).wf = true := by
  induction l generalizing m with
  | nil => exact h
  | cons pt l ih => exact ih _ (plotPoint_wf bank m pt h)

theorem renderBank_wf (bank : Bank) (m : Memory) (h : m.wf = true) : (s.renderBank bank m).wf = true :=
  plotPoints_wf bank _ m h

theorem drawBank_wf (bank : Bank) (m : Memory) (h : m.wf = true) : (s.drawBank bank m).wf = true := by
  unfold State.drawBank
  split
  · exact renderBank_wf bank m h
  · exact renderBank_wf bank _ (clearWords_wf bank _ 0 m h)

theorem exec_mem_wf {i : Instr} (h : exec i s = .next t) (hm : s.mem.wf = true) : t.mem.wf = true := by
  by_cases hb : s.isBusy = true
  · obtain ⟨effect, he⟩ := exec_eq_submit i
    rw [he s, submit_of_busy hb] at h
    cases h
    exact hm
  · have hi := State.isBusy_eq_false_iff.1 (by simpa using hb : s.isBusy = false)
    cases i <;> (simp only [exec, execNop, execClear, execRender, execPresent, execAdvance, execDraw, execPlot,
      execWlookup, execGlookup, execCstep, submit_of_idle hi, Host.Outcome.next.injEq] at h; subst h)
    case clear b => simpa [State.clearBank] using clearWords_wf (bankOf b) _ 0 _ hm
    case render => simpa using renderBank_wf s.active _ hm
    case draw => simpa using drawBank_wf s.active _ hm
    case plot => simpa using plotPoint_wf s.active _ _ hm
    all_goals simpa using hm

/-! ### A turn of the engine -/

/-- The commands that touch memory (20_memory.md R68). -/
def touchesMemory : Instr → Bool
  | .clear _ => true
  | .render => true
  | .draw => true
  | .plot => true
  | .nop => false
  | .present => false
  | .advance => false
  | .wlookup _ => false
  | .glookup _ => false
  | .cstep => false

/-- A turn of the engine is always answered with a next state. -/
theorem engineTurn_next (s : State) : ∃ t, engineTurn s = .next t := by
  unfold engineTurn
  split
  · exact ⟨_, rfl⟩
  · rename_i i p _
    cases p with
    | start =>
      cases i <;> simp only [engineStep, engineStart]
      case draw => split <;> exact ⟨_, rfl⟩
      case plot => split <;> exact ⟨_, rfl⟩
      case clear => exact ⟨_, rfl⟩
      case render => exact ⟨_, rfl⟩
      all_goals exact exec_next _ _
    | _ => exact ⟨_, rfl⟩

/-- All a turn of the engine can do: nothing while idle; the meaning of a command that touches no memory; a step
without an access or with a read; one word written; the completing step. -/
theorem engineTurn_cases (h : engineTurn s = .next t) :
    (s.seq = .idle ∧ t = s) ∨
    (∃ i, s.seq = .busy i .start ∧ touchesMemory i = false ∧ exec i (s.setSeq .idle) = .next t) ∨
    (∃ i p q, s.seq = .busy i p ∧ t = s.setSeq (.busy i q)) ∨
    (∃ i p q a v, s.seq = .busy i p ∧ t = (s.setMem (s.mem.writeWord a v)).setSeq (.busy i q)) ∨
    (∃ i p, s.seq = .busy i p ∧ t = s.complete) := by
  unfold engineTurn at h
  split at h
  · rename_i hs
    cases h
    exact .inl ⟨hs, rfl⟩
  · rename_i i p hs
    right
    cases p with
    | start =>
      cases i <;> simp only [engineStep, engineStart] at h
      case clear b => cases h; exact .inr (.inl ⟨_, _, _, hs, rfl⟩)
      case render => cases h; exact .inr (.inl ⟨_, _, _, hs, rfl⟩)
      case draw => split at h <;> (cases h; exact .inr (.inl ⟨_, _, _, hs, rfl⟩))
      case plot => split at h <;> (cases h; exact .inr (.inl ⟨_, _, _, hs, rfl⟩))
      all_goals exact .inl ⟨_, hs, rfl, h⟩
    | clearing bank c =>
      cases h
      unfold clearTurn
      split
      · exact .inr (.inr (.inl ⟨i, _, _, _, _, hs, rfl⟩))
      · cases i <;> first
          | exact .inr (.inr (.inr ⟨_, _, hs, rfl⟩))
          | exact .inr (.inl ⟨_, _, _, hs, rfl⟩)
    | rendering f =>
      cases h
      unfold renderTurn
      split
      · split
        · dsimp only
          split <;> exact .inr (.inl ⟨_, _, _, hs, rfl⟩)
        · exact .inr (.inl ⟨_, _, _, hs, rfl⟩)
      · exact .inr (.inr (.inr ⟨_, _, hs, rfl⟩))
    | plotting f a => cases h; exact .inr (.inr (.inl ⟨_, _, _, _, _, hs, rfl⟩))
    | writing a => cases h; exact .inr (.inr (.inl ⟨_, _, _, _, _, hs, rfl⟩))
    | finish => cases h; exact .inr (.inr (.inr ⟨_, _, hs, rfl⟩))

end Sys2Proof.Machine
end

