-- ==== Sys2Proof/Laws/PerInstr.lean ====
section
/-!
SUPPORT. Statements about every command as syntax, one lemma per constructor.
-/
namespace Sys2Proof.Laws.Encoding

/-- The word of a well-formed command lies in its own row of the opcode map (30_encoding.md R85). -/
def Statement (i : Instr) : Prop :=
  i.wf = true → opField (encode i) = opcode i ∧
    ∃ row, opTable[opcode i]? = some row ∧ encode i &&& row.mask = row.pattern

theorem nop : Statement .nop := fun _ => ⟨by decide, _, rfl, by decide⟩
theorem render : Statement .render := fun _ => ⟨by decide, _, rfl, by decide⟩
theorem present : Statement .present := fun _ => ⟨by decide, _, rfl, by decide⟩
theorem advance : Statement .advance := fun _ => ⟨by decide, _, rfl, by decide⟩
theorem draw : Statement .draw := fun _ => ⟨by decide, _, rfl, by decide⟩
theorem plot : Statement .plot := fun _ => ⟨by decide, _, rfl, by decide⟩
theorem cstep : Statement .cstep := fun _ => ⟨by decide, _, rfl, by decide⟩

theorem clear (b : Nat) : Statement (.clear b) := by
  intro h
  have hb : b < 2 := by simpa [Instr.wf] using h
  have h2 : b = 0 ∨ b = 1 := by omega
  rcases h2 with rfl | rfl
  · exact ⟨by decide, _, rfl, by decide⟩
  · exact ⟨by decide, _, rfl, by decide⟩

/-- A 16-bit index above a 16-bit low half (30_encoding.md R80). -/
theorem indexWord_eq_append (op x : Nat) (hop : op < 65536) :
    BitVec.ofNat 32 (op + x * 0x10000) = BitVec.ofNat 16 x ++ BitVec.ofNat 16 op := by
  have hlow : op % 2 ^ 16 < 2 ^ 16 := Nat.mod_lt _ (by decide)
  apply BitVec.eq_of_toNat_eq
  simp only [BitVec.toNat_ofNat, BitVec.toNat_append]
  rw [← Nat.shiftLeft_add_eq_or_of_lt hlow, Nat.shiftLeft_eq]
  omega

/-- The OP field of such a word. -/
theorem opField_indexWord (op x : Nat) (hop : op < 256) : opField (BitVec.ofNat 32 (op + x * 0x10000)) = op := by
  simp only [opField, BitVec.extractLsb'_toNat, BitVec.toNat_ofNat, Nat.shiftRight_zero]
  omega

theorem wlookup (idx : Nat) : Statement (.wlookup idx) := by
  intro h
  have hx : idx < 16384 := by simpa [Instr.wf] using h
  have he : encode (.wlookup idx) = BitVec.ofNat 16 idx ++ 7#16 := indexWord_eq_append 7 idx (by decide)
  have hmod : idx % 2 ^ 16 = idx := Nat.mod_eq_of_lt (by omega)
  have htop : ∀ (k : Nat) (hk : k < 16), 14 ≤ k → (BitVec.ofNat 16 idx)[k] = false := by
    intro k hk h14
    rw [BitVec.getElem_eq_testBit_toNat, BitVec.toNat_ofNat, hmod]
    exact Nat.testBit_lt_two_pow (Nat.lt_of_lt_of_le hx (Nat.pow_le_pow_right (by decide : 0 < 2) h14))
  refine ⟨opField_indexWord 7 idx (by decide), _, rfl, ?_⟩
  · rw [he]
    refine BitVec.eq_of_getLsbD_eq fun k hk => ?_
    rw [BitVec.getLsbD_and, BitVec.getLsbD_append]
    interval_cases k <;> simp [htop]

theorem glookup (gidx : Nat) : Statement (.glookup gidx) := by
  intro _
  have he : encode (.glookup gidx) = BitVec.ofNat 16 gidx ++ 8#16 := indexWord_eq_append 8 gidx (by decide)
  refine ⟨opField_indexWord 8 gidx (by decide), _, rfl, ?_⟩
  · rw [he]
    refine BitVec.eq_of_getLsbD_eq fun k hk => ?_
    rw [BitVec.getLsbD_and, BitVec.getLsbD_append]
    interval_cases k <;> simp

end Sys2Proof.Laws.Encoding
end

