-- ==== Sys2Proof/Tests/Slice0.lean ====
section
/-!
SUPPORT. The model's own tests: words written out from the encodings, vectors of 95_test_vectors.md, and for every
statement with hypotheses a concrete case that meets them.
-/
namespace Sys2Proof.Tests

open Sys2Proof Sys2Proof.Machine

/-! ### Helpers: the example surface of 95_test_vectors.md -/

/-- QUARTER_TEST[r] = r (00_scope.md R7). -/
def quarterTest : List (BitVec 15) := (List.range 4096).map (BitVec.ofNat 15)

/-- 640 x 480, the background of the vectors, QUARTER_TEST. -/
def exampleParams : Params := { width := 640, height := 480, bgWord := 0x00800080, quarter := quarterTest }

/-- After reset, FB0_BASE = 0x01000000 and FB1_BASE = 0x01096000 (program P1). -/
def exampleState : State := { State.resetWith exampleParams with fb0 := 0x00400000, fb1 := 0x00425800 }

/-- The same with a command running. -/
def busyState (i : Instr) (p : Progress) : State := exampleState.setSeq (.busy i p)

/-- What is left of an outcome. -/
def after (o : Host.Outcome State Fault Refusal) : State :=
  match o with
  | .next s => s
  | .fault _ => exampleState
  | .refused _ => exampleState

/-- No input. -/
def noInput : HostInput :=
  { left := false, right := false, up := false, down := false, zoomIn := false, zoomOut := false, speedUp := false,
    slowDown := false, chord := false, freeze := false, trails := false }

/-! ### Well-formed commands (30_encoding.md R90) -/

theorem test_wf_clear_bank_2 : (Instr.clear 2).wf = false := by decide
theorem test_wf_wlookup_16384 : (Instr.wlookup 16384).wf = false := by decide
theorem test_wf_glookup_65536 : (Instr.glookup 65536).wf = false := by decide
theorem test_wf_bounds : (Instr.clear 1).wf ∧ (Instr.wlookup 16383).wf ∧ (Instr.glookup 65535).wf := by decide

/-! ### Words written out bit by bit (30_encoding.md R85) -/

theorem test_decode_nop : decode 0b00000000000000000000000000000000 = .ok .nop := by rfl
theorem test_decode_clear : decode 0b00000000000000000000000100000001 = .ok (.clear 1) := by rfl
theorem test_decode_render : decode 0b00000000000000000000000000000010 = .ok .render := by rfl
theorem test_decode_present : decode 0b00000000000000000000000000000011 = .ok .present := by rfl
theorem test_decode_advance : decode 0b00000000000000000000000000000100 = .ok .advance := by rfl
theorem test_decode_draw : decode 0b00000000000000000000000000000101 = .ok .draw := by rfl
theorem test_decode_plot : decode 0b00000000000000000000000000000110 = .ok .plot := by rfl
theorem test_decode_wlookup : decode 0b00011111111111100000000000000111 = .ok (.wlookup 8190) := by rfl
theorem test_decode_glookup : decode 0b11111111111111110000000000001000 = .ok (.glookup 65535) := by rfl
theorem test_decode_cstep : decode 0b00000000000000000000000000001001 = .ok .cstep := by rfl
theorem test_decode_table_word : decodeTableWord 32 0x10000007 = some (.wlookup 4096) := by rfl

/-! ### Vectors of 95_test_vectors.md -/

/-- V2.1, V2.7, V2.12, V2.15. -/
theorem test_wrom : wromWord quarterTest 0 = 0x00000FFF ∧ wromWord quarterTest 8190 = 0x0001F002 ∧
    wromWord quarterTest 12287 = 0xF0010000 ∧ wromWord quarterTest 16382 = 0xFFFF0FFE := by decide +kernel

/-- V3.3, V3.8, V3.19. -/
theorem test_grom : gromEntry 3 = 0x29EF6D ∧ gromEntry 1535 = 0x808D30 ∧ gromEntry 64512 = 0x5D93E5 := by
  decide +kernel

/-- V4.2: the first three points of slot 1 at t = 0. -/
theorem test_slot_points : (slotPoints quarterTest 278 10430 3 1024 0 0).map (fun p => (p.x.toInt, p.y.toInt)) =
    [(1960, -1960), (-1960, 1960), (2516, -5674)] := by decide +kernel

/-- V4.6. -/
theorem test_curve_step_masks : curveStep quarterTest 0 0 0x7FFFFFFF 0x80000000 = (8190, 0) := by decide +kernel

/-- V5.4, V5.7: floor, and a product that wraps. -/
theorem test_xform :
    ({ exampleState with scalemul := 753 }.xform (BitVec.ofInt 32 (-1)) 320).toInt = 319 ∧
    ({ exampleState with scalemul := 40000 }.xform 65534 0).toInt = -102149 := by decide +kernel

/-- V5.17, V5.18. -/
theorem test_pack : pack 0x12345678 320 0xAABBCC = 0xAABB56CC ∧ pack 0x12345678 321 0xAABBCC = 0x12BBAACC := by decide

/-- 43_compositor.md R166, the example. -/
theorem test_plot : (after (exec .plot { exampleState with
      mem := Memory.writeWord [] 0x0104B280 0x00800080, ptX := 1, ptY := 1, ptColor := 0x29F06D })).mem.readWord 0x0104B280 =
    0x29F0006D := by decide +kernel

/-- V7.13: a point out of bounds (PT_X = 8188, px = 696) writes nothing and is no error. -/
theorem test_plot_out_of_bounds :
    (after (exec .plot { exampleState with ptX := 8188, ptY := 2 })).mem = [] ∧
    (after (exec .plot { exampleState with ptX := 8188, ptY := 2 })).err = false := by decide +kernel

/-- A clear of a 2 x 1 surface is one word of the background. -/
theorem test_clear : (after (exec (.clear 1) { exampleState with
      params := { exampleParams with width := 2, height := 1 } })).mem =
    [(0x01096000, 0x00), (0x01096001, 0x80), (0x01096002, 0x00), (0x01096003, 0x80)] := by decide +kernel

/-- V6.1. -/
theorem test_nop : (after (exec .nop exampleState)).statusWord = 0x00000202 := by decide +kernel

/-- V6.2, V6.4. -/
theorem test_present : (after (exec .present exampleState)).statusWord = 0x00000102 ∧
    (after (exec .present { exampleState with trails := true, active := 1, presented := 0 })).statusWord = 0x00000302 := by
  decide +kernel

/-- V6.7. -/
theorem test_advance : (after (exec .advance { exampleState with phase := 0x7FFFFFFC })).phase = 0x80000004 := by
  decide +kernel

/-- P3 steps 8 and 10. -/
theorem test_lookups : (after (exec (.wlookup 8190) exampleState)).lookup = 0x0001F002 ∧
    (after (exec (.glookup 1024) exampleState)).lookup = 0x0029EE6F := by decide +kernel

/-- P1 steps 5 and 6. -/
theorem test_cstep : (after (exec .cstep (after (exec .cstep exampleState)))).ptX = 1 ∧
    (after (exec .cstep exampleState)).ptX = 8190 := by decide +kernel

/-- V7.1, V7.3, V7.4: the codes of rejected words, the later one overwriting the earlier. -/
theorem test_reject : (exampleState.writeReg .cmd 0x0000000A).statusWord = 0x00000214 ∧
    (exampleState.writeReg .cmd 0x00000102).statusWord = 0x00000224 ∧
    ((exampleState.writeReg .cmd 0x00000102).writeReg .cmd 0xFFFF00FF).statusWord = 0x00000214 := by decide +kernel

/-- V7.5, V7.7, V7.8: a write while busy, the completion, and an acknowledgement of DONE alone. -/
theorem test_busy_reject :
    ((busyState .advance .start).writeReg .speed 3).statusWord = 0x00000235 ∧
    (after (engineTurn ((busyState .advance .start).writeReg .speed 3))).statusWord = 0x00000236 ∧
    ((after (engineTurn ((busyState .advance .start).writeReg .speed 3))).writeReg .status 2).statusWord =
      0x00000234 := by decide +kernel

/-- V7.9, V7.10. -/
theorem test_irq : (after (exec .nop { exampleState with irqEn := true })).irq = true ∧
    ((after (exec .nop { exampleState with irqEn := true })).writeReg .status 6).irq = false := by decide +kernel

/-- V8.1, V8.2. -/
theorem test_reset : (State.resetWith exampleParams).statusWord = 0x00000200 ∧
    (State.resetWith exampleParams).scalemul = 753 ∧ (State.resetWith exampleParams).xpan = 320 ∧
    scalemulReset { exampleParams with height := 574 } = 901 := by decide +kernel

/-- V9.4, V9.6, V9.8 (the truncation). -/
theorem test_host_freeze :
    (hostFreeze { noInput with freeze := true } { HostCtl.initial exampleParams with speed := 1, savedSpeed := 8 }).savedSpeed
      = 1 := by decide

theorem test_host_chord : (hostUpdate exampleParams { noInput with chord := true, freeze := true, trails := true }
    { HostCtl.initial exampleParams with trails := true, speed := 3 }).speed = 8 := by decide

/-- V9.6: before rounding, the initial scale at HEIGHT = 480 truncates to 753. -/
theorem test_host_scale : hostTrunc (hostScaleExact 480) = 753 := by decide +kernel

theorem test_host_trunc : hostTrunc ⟨1009, 10⟩ = 100 ∧ hostTrunc ⟨-5, 10⟩ = 0 ∧ hostTrunc ⟨75398, 100⟩ = 753 := by decide

/-- A host byte load sees the big-endian byte of a word (20_memory.md R64). -/
theorem test_big_endian : (Memory.writeWord [] 0x100 0x11223344).load 0x102 .byte = 0x33 := by decide

/-- A submitted command runs as the first step after reset. -/
theorem test_first_step : ∃ t, step (State.reset.withFetchWord 32 0x04000008) = .next t ∧ t.lookup = 0x0029EE6F := by
  refine ⟨_, rfl, ?_⟩
  decide +kernel

/-! ### Cases that meet the hypotheses of the statements -/

theorem test_params_admissible : exampleParams.Admissible := by decide +kernel

theorem test_example_inv : exampleState.Inv := ⟨test_params_admissible, rfl, rfl⟩

theorem test_running_inv : (busyState .draw (.rendering (frameStart 0 0))).Inv :=
  ⟨test_params_admissible, rfl, by decide +kernel⟩

/-- The last state of the traversal, at the upper ends of k and g. -/
theorem test_running_end_inv : (busyState .render (.rendering
    { bank := 0, ip1 := 17792, ip2 := 667520, ix := 0, iy := 0, k := 64, j := 0, g := 65536 })).Inv :=
  ⟨test_params_admissible, rfl, by decide +kernel⟩

theorem test_witness_decode_of_encode : (Instr.wlookup 16383).wf = true := by decide

theorem test_witness_acceptance :
    (busyState .nop .start).isBusy = true ∧ exampleState.isBusy = false ∧ 0x0A ≤ opField 0x0000000A ∧
    opField 0x40000007 < 0x0A ∧ ¬ fieldsLegal 0x40000007 ∧ opField 0x3FFF0007 < 0x0A ∧ fieldsLegal 0x3FFF0007 := by
  unfold fieldsLegal
  decide +kernel

theorem test_witness_completing_turn :
    ∃ t, engineTurn (busyState .nop .start) = .next t ∧ t.isBusy = false := ⟨_, rfl, rfl⟩

theorem test_witness_busy_turn :
    ∃ t, engineTurn (busyState .render .start) = .next t ∧ t.isBusy = true := ⟨_, rfl, rfl⟩

theorem test_witness_busy_step : (busyState .render .start).isBusy = true ∧
    ∃ t, step (busyState .render .start) = .next t ∧ t.isBusy = true := ⟨rfl, _, rfl, rfl⟩

theorem test_witness_write_while_busy : (busyState .draw .start).isBusy = true ∧ (0x00 : Byte) ∈ guardedOffsets ∧
    (0x44 : Byte) ∈ guardedOffsets ∧ (0x04 : Byte).toNat % 4 = 0 ∧ (0x04 : Byte) ∉ guardedOffsets ∧
    (0xFC : Byte).toNat % 4 = 0 ∧ (0xFC : Byte) ∉ guardedOffsets := by decide +kernel

theorem test_witness_register_write : exampleState.isBusy = false ∧ Reg.ctrl.guarded = true ∧ Reg.ctrl ≠ Reg.cmd := by
  decide +kernel

theorem test_witness_offsets : (0x48 : Byte).toNat % 4 = 0 ∧ 0x48 ≤ (0xFC : Byte).toNat ∧ (0xFC : Byte).toNat % 4 = 0 ∧
    (0x44 : Byte) ∈ guardedOffsets ∧ (0x04 : Byte) ∉ guardedOffsets ∧ (0x01 : Byte).toNat % 4 ≠ 0 := by decide

theorem test_witness_irq_disable : exampleState.isBusy = false ∧ (0x00000001 : Word).getLsbD 1 = false := by decide +kernel

theorem test_witness_done_cleared : ∃ t, step { exampleState with done := true, pending := [ackEvent] } = .next t ∧
    t.done = false ∧ State.writeNext { exampleState with done := true, pending := [ackEvent] } 0x04 6 :=
  ⟨_, rfl, rfl, [], .inl rfl⟩

theorem test_witness_done_reset : ∃ t, step { exampleState with done := true, pending := [.rst] } = .next t ∧
    t.done = false := ⟨_, rfl, rfl⟩

theorem test_witness_reset : (busyState .draw .start).params.Admissible ∧
    ((busyState .draw .start).setPending [.rst]).pending = .rst :: [] := ⟨test_params_admissible, rfl⟩

theorem test_witness_prefix : ((busyState .draw .start).setPending [.engine, .rst]).pending =
      List.replicate 1 .engine ++ .rst :: [] ∧
    ∃ t, engineTurns 1 { (busyState .draw .start).setPending [.engine, .rst] with pending := [] } = .next t :=
  ⟨rfl, _, rfl⟩

theorem test_witness_low_bits : (∀ k, k < 14 → (0x00004001 : Word).getLsbD k = (0x00000001 : Word).getLsbD k) ∧
    (16384 : Word).toNat % 16384 = (0 : Word).toNat % 16384 ∧ (0x4000 : Word) &&& 0x3FFF = (0 : Word) &&& 0x3FFF := by
  decide

/-- Differs from exampleState in registers that RENDER does not read and in the phase by a whole period. -/
def sameFrameState : State := { exampleState with ptX := 7, phase := 16384 }

/-- Two different states that RENDER cannot tell apart. -/
theorem test_witness_render_agree : exampleState ≠ sameFrameState ∧ exampleState.params.Admissible ∧
    sameFrameState.params.Admissible ∧ exampleState.seq = .idle ∧ sameFrameState.seq = .idle ∧
    exampleState.phase &&& 0x3FFF = sameFrameState.phase &&& 0x3FFF ∧
    exampleState.params.quarter = sameFrameState.params.quarter ∧ exampleState.scalemul = sameFrameState.scalemul ∧
    exampleState.xpan = sameFrameState.xpan ∧ exampleState.ypan = sameFrameState.ypan ∧
    exampleState.params.width = sameFrameState.params.width ∧
    exampleState.params.height = sameFrameState.params.height ∧
    exampleState.fbBase exampleState.active = sameFrameState.fbBase sameFrameState.active ∧
    (∀ a, exampleState.inBank exampleState.active a = true →
      exampleState.mem.readByte a = sameFrameState.mem.readByte a) :=
  ⟨fun h => absurd (congrArg State.ptX h) (by decide +kernel), test_params_admissible, test_params_admissible, rfl, rfl,
    by decide +kernel, rfl, rfl, rfl, rfl, rfl, rfl, rfl, fun _ _ => rfl⟩

theorem test_witness_pack : (320 : Word).toNat % 2 = 0 ∧ (321 : Word).toNat % 2 = 1 := by decide

theorem test_witness_outside_bank : exampleState.targetBank .draw = some 0 ∧
    exampleState.inBank 0 0x01096000 = false ∧ exampleState.inBank 0 0x01095FFF = true := by decide +kernel

theorem test_witness_repeated_frame : State.Inv { exampleState with trails := true, speed := 0 } ∧
    State.seq { exampleState with trails := true, speed := 0 } = .idle := ⟨⟨test_params_admissible, rfl, rfl⟩, rfl⟩

/-- exampleState at zero scale. -/
def zeroScaleState : State := { exampleState with scalemul := 0 }

theorem test_witness_zero_scale : zeroScaleState.params.Admissible ∧ zeroScaleState.seq = .idle ∧
    zeroScaleState.trails = false ∧ zeroScaleState.scalemul = 0 ∧
    zeroScaleState.inBounds zeroScaleState.xpan zeroScaleState.ypan = true :=
  ⟨test_params_admissible, rfl, rfl, rfl, by decide +kernel⟩

/-- Columns 639 (the last one inside) and 640 (the first one outside) of row 240. -/
theorem test_witness_plot : exampleState.seq = .idle ∧
    ((6962 : Word) * exampleState.scalemul).sshiftRight 14 + exampleState.xpan = 639 ∧
    ((6963 : Word) * exampleState.scalemul).sshiftRight 14 + exampleState.xpan = 640 ∧
    ((1 : Word) * exampleState.scalemul).sshiftRight 14 + exampleState.ypan = 240 ∧
    (639 : Word).toInt < exampleState.params.width ∧ ¬ (640 : Word).toInt < exampleState.params.width := by
  decide +kernel

theorem test_witness_opcodes : opField 0x00000100 = 0x00 ∧ opField 0x00000101 = 0x01 ∧ opField 0x00000102 = 0x02 ∧
    opField 0x00000103 = 0x03 ∧ opField 0x00000004 = 0x04 ∧ opField 0x00000005 = 0x05 ∧ opField 0x00000006 = 0x06 ∧
    opField 0x3FFF0007 = 0x07 ∧ opField 0xFFFF0008 = 0x08 ∧ opField 0x00000009 = 0x09 := by decide

theorem test_witness_submission : exampleState.seq = .idle ∧
    (exampleState.setPending [.sync 0x1FFE0007]).pending = .sync 0x1FFE0007 :: [] ∧
    decode 0x1FFE0007 = .ok (.wlookup 8190) := ⟨rfl, rfl, rfl⟩

/-- An engine step that writes: word 0 of the active bank. -/
theorem test_witness_engine_write : (busyState .draw (.clearing 0 0)).Inv ∧
    (busyState .draw (.clearing 0 0)).seq = .busy .draw (.clearing 0 0) ∧
    ∃ t, engineTurn (busyState .draw (.clearing 0 0)) = .next t ∧ t.mem ≠ [] :=
  ⟨⟨test_params_admissible, rfl, by decide +kernel⟩, rfl, _, rfl, by decide +kernel⟩

/-- The end of a clear: every word of the bank is written. -/
theorem test_witness_clear_end : (busyState (.clear 0) (.clearing 0 153600)).Inv :=
  ⟨test_params_admissible, rfl, by decide +kernel⟩

/-- A plot between its read and its write, in PLOT and after the first point of a frame. -/
def pendingPlot : PlotAccess := { addr := 0x0104B280, px := 320, color := 0x29F06D, w := 0x00800080 }

theorem test_witness_pending_write : (busyState .plot (.writing pendingPlot)).Inv ∧
    (busyState .plot .finish).Inv ∧ (busyState .render (.plotting
      { bank := 0, ip1 := 0, ip2 := 0, ix := 1, iy := 1, k := 0, j := 1, g := 1 } pendingPlot)).Inv :=
  ⟨⟨test_params_admissible, rfl, by decide +kernel⟩, ⟨test_params_admissible, rfl, by decide +kernel⟩,
    test_params_admissible, rfl, by decide +kernel⟩

theorem test_witness_running : (busyState .draw (.rendering (frameStart 0 0))).Inv ∧
    (busyState .draw (.rendering (frameStart 0 0))).isBusy = true := ⟨test_running_inv, rfl⟩

theorem test_witness_invariant_step : ∃ t, step (busyState .draw .start) = .next t ∧ (busyState .draw .start).Inv :=
  ⟨_, rfl, test_params_admissible, rfl, rfl⟩

theorem test_witness_bank_change : ∃ t, step (busyState .present .start) = .next t ∧
    t.active ≠ (busyState .present .start).active := ⟨_, rfl, by decide +kernel⟩

theorem test_witness_phase_change : ∃ t, step (busyState .advance .start) = .next t ∧
    t.phase ≠ (busyState .advance .start).phase := ⟨_, rfl, by decide +kernel⟩

theorem test_witness_speed_change : ∃ t, step (exampleState.setPending [.write 0x10 .word 3]) = .next t ∧
    t.speed ≠ exampleState.speed := ⟨_, rfl, by decide +kernel⟩

theorem test_witness_host : ({ noInput with chord := true } : HostInput).chord = true ∧ noInput.chord = false ∧
    ({ noInput with freeze := true } : HostInput).freeze = true ∧ noInput.freeze = false ∧
    (HostCtl.initial exampleParams).speed + (if noInput.speedUp = true then 1 else 0)
      - (if noInput.slowDown = true then 1 else 0) ≠ 0 := by decide

theorem test_witness_host_zero_speed : ({ HostCtl.initial exampleParams with speed := -1 }).speed
      + (if ({ noInput with speedUp := true } : HostInput).speedUp = true then 1 else 0) = 0 := by decide

theorem test_witness_host_even : exampleParams.Admissible ∧ exampleParams.height % 2 = 0 ∧
    ({ noInput with chord := true } : HostInput).chord = true := ⟨test_params_admissible, rfl, rfl⟩

theorem test_witness_host_frame : (exampleState.setPending [.hostFrame noInput]).pending = .hostFrame noInput :: [] ∧
    (exampleState.setPending [.hostFrame noInput]).seq = .idle := ⟨rfl, rfl⟩

end Sys2Proof.Tests
end

/-! # The register window and the register results of a running command

10_state.md R29, R30, R39 to R42. First how an access of the window behaves (`act_write_of_aligned`,
`act_read_of_aligned`, `writeReg_of_busy_guarded`, `writeReg_of_unguarded`), then what one engine step of a running
command can do to the registers (`engineTurn_of_busy`), then the statements. -/

namespace Sys2Proof.Machine

section Window

variable {s : State} {off : Byte} {size : Size} {r : Reg} {v : Word}

/-! ### Which accesses the window takes (R40) -/

theorem windowAccepts_iff : windowAccepts off size = true ↔ size = .word ∧ off.toNat % 4 = 0 := by
  simp [windowAccepts]

theorem act_write_of_aligned (h : off.toNat % 4 = 0) :
    act (.write off .word v) s = .next (s.writeReg (regAt off) v) :=
  if_pos (windowAccepts_iff.2 ⟨rfl, h⟩)

theorem act_read_of_aligned (h : off.toNat % 4 = 0) :
    act (.read off .word) s = .next { s with busData := s.readReg (regAt off) } :=
  if_pos (windowAccepts_iff.2 ⟨rfl, h⟩)

theorem act_write_refused (h : ¬ (size = .word ∧ off.toNat % 4 = 0)) :
    act (.write off size v) s = .refused .registerAccess :=
  if_neg (windowAccepts_iff.not.2 h)

theorem act_read_refused (h : ¬ (size = .word ∧ off.toNat % 4 = 0)) :
    act (.read off size) s = .refused .registerAccess :=
  if_neg (windowAccepts_iff.not.2 h)

/-! ### Offsets and registers (10_state.md section 2) -/

theorem regAt_of_reserved (h : 0x48 ≤ off.toNat) : regAt off = .reserved := by
  unfold regAt
  split
  case h_19 => rfl
  all_goals omega

/-- R41's list of offsets is the list of the guarded registers' offsets. -/
theorem mem_guardedOffsets_iff : off ∈ guardedOffsets ↔ off.toNat % 4 = 0 ∧ (regAt off).guarded = true := by
  revert off
  decide

/-! ### Register writes (R41) -/

theorem writeReg_of_busy_guarded (hb : s.isBusy = true) (hr : r.guarded = true) :
    s.writeReg r v = s.reject .busyReject := by
  simp [State.writeReg, hb, hr]

theorem writeReg_of_unguarded (hr : r.guarded = false) : s.writeReg r v = s.storeReg r v := by
  simp [State.writeReg, hr]

@[simp] theorem writeReg_width : s.writeReg .width v = s := writeReg_of_unguarded rfl
@[simp] theorem writeReg_height : s.writeReg .height v = s := writeReg_of_unguarded rfl
@[simp] theorem writeReg_lookup : s.writeReg .lookup v = s := writeReg_of_unguarded rfl
@[simp] theorem writeReg_reserved : s.writeReg .reserved v = s := writeReg_of_unguarded rfl

/-- A write to an unguarded register neither reads nor changes the sequencer: it may be done as if idle. -/
theorem writeReg_unguarded_eq_idle (hr : r.guarded = false) :
    s.writeReg r v = ((s.setSeq .idle).writeReg r v).setSeq s.seq := by
  rw [writeReg_of_unguarded hr, writeReg_of_unguarded hr]
  cases r
  case status | width | height | lookup | reserved => rfl
  all_goals cases hr

end Window

section EngineTurn

variable {s t : State} {i : Instr}

/-- A command that touches no memory (20_memory.md R68) is a submission of an effect that keeps memory. -/
theorem exec_eq_submit_of_not_touchesMemory (hi : touchesMemory i = false) :
    ∃ effect : State → State, (∀ u, exec i u = u.submit effect) ∧ ∀ u, (effect u).mem = u.mem := by
  cases i
  case clear | render | draw | plot => cases hi
  all_goals exact ⟨_, fun _ => rfl, fun _ => rfl⟩

/-- The meaning of a command that touches no memory is its completing step (10_state.md R45, 20_memory.md R72). -/
theorem exec_completes_of_not_touchesMemory (hs : s.seq = .idle) (hi : touchesMemory i = false)
    (h : exec i s = .next t) : t.seq = .idle ∧ t.done = true ∧ t.mem = s.mem := by
  obtain ⟨effect, heffect, hmem⟩ := exec_eq_submit_of_not_touchesMemory hi
  rw [heffect, submit_of_idle hs] at h
  cases h
  exact ⟨rfl, rfl, hmem s⟩

/-- An engine step of a running command either leaves it running and reaches at most the sequencer and memory, or
completes it and leaves memory alone (10_state.md R42, R45, 20_memory.md R72). -/
theorem engineTurn_of_busy (hb : s.isBusy = true) (h : engineTurn s = .next t) :
    (t.isBusy = true ∧ t = { s with seq := t.seq, mem := t.mem }) ∨
    (t.isBusy = false ∧ t.done = true ∧ t.mem = s.mem) := by
  obtain ⟨hidle, -⟩ | ⟨i, -, hi, he⟩ | ⟨i, p, q, -, rfl⟩ | ⟨i, p, q, a, v, -, rfl⟩ | ⟨i, p, -, rfl⟩ :=
    engineTurn_cases h
  · simp [State.isBusy_of_idle hidle] at hb
  · obtain ⟨hseq, hdone, hmem⟩ := exec_completes_of_not_touchesMemory rfl hi he
    exact .inr ⟨State.isBusy_of_idle hseq, hdone, hmem⟩
  · exact .inl ⟨rfl, rfl⟩
  · exact .inl ⟨rfl, rfl⟩
  · exact .inr ⟨rfl, rfl, rfl⟩

end EngineTurn

/-! ### The statements -/

/-- Settles O8: a guarded offset is rejected whatever it holds, and an unguarded register's write commutes with the
sequencer. -/
theorem writesWhileBusyAreDropped : Obligations.WritesWhileBusyAreDropped := by
  refine ⟨fun s off v hb hoff => ?_, fun s off v _ hal hoff => ?_⟩
  · obtain ⟨hal, hr⟩ := mem_guardedOffsets_iff.1 hoff
    rw [act_write_of_aligned hal, writeReg_of_busy_guarded hb hr]
    rfl
  · have hr : (regAt off).guarded = false := by simpa [mem_guardedOffsets_iff, hal] using hoff
    refine ⟨_, act_write_of_aligned hal, ?_⟩
    rw [act_write_of_aligned hal, writeReg_unguarded_eq_idle hr]
    rfl

/-- Settles O11: the two ways an engine step of a running command can end. -/
theorem resultsAppearAtCompletion : Obligations.ResultsAppearAtCompletion := by
  refine ⟨fun s off hal => act_read_of_aligned hal, fun s t hb h ht => ?_, fun s t hb h ht => ?_⟩
  · obtain ⟨-, hframe⟩ | ⟨hidle, -⟩ := engineTurn_of_busy hb h
    · exact hframe
    · simp [ht] at hidle
  · obtain ⟨hbusy, -⟩ | ⟨-, hdone⟩ := engineTurn_of_busy hb h
    · simp [ht] at hbusy
    · exact hdone

/-- Settles O7: each offset's register is not guarded, and its write stores nothing. -/
theorem readOnlyAndReservedIgnoreWrites : Obligations.ReadOnlyAndReservedIgnoreWrites := by
  intro s v
  have write_ignored {off : Byte} (hal : off.toNat % 4 = 0) (h : s.writeReg (regAt off) v = s) :
      act (.write off .word v) s = .next s := by rw [act_write_of_aligned hal, h]
  refine ⟨write_ignored rfl writeReg_width, write_ignored rfl writeReg_height, act_read_of_aligned rfl,
    act_read_of_aligned rfl, write_ignored rfl writeReg_lookup, act_read_of_aligned rfl, act_read_of_aligned rfl,
    fun off hoff hal => ⟨?_, ?_⟩⟩
  · exact write_ignored hal (by rw [regAt_of_reserved hoff, writeReg_reserved])
  · rw [act_read_of_aligned hal, regAt_of_reserved hoff]
    rfl

/-- Settles O10: the window takes an access exactly when it is an aligned word. -/
theorem windowAcceptsOnlyAlignedWords : Obligations.WindowAcceptsOnlyAlignedWords := by
  intro s off size v
  refine ⟨fun hbad => ?_, fun hsize hal => ?_⟩
  · have h : ¬ (size = .word ∧ off.toNat % 4 = 0) := not_and_or.2 hbad
    exact ⟨act_write_refused h, act_read_refused h⟩
  · subst hsize
    exact ⟨⟨_, act_write_of_aligned hal⟩, ⟨_, act_read_of_aligned hal⟩⟩

end Sys2Proof.Machine

/-! # The waveform ROM and its table read

40_waveform_rom.md R101 to R105 and R108: the halves of a WROM word and the index of a read as plain arithmetic, the
samples quadrant by quadrant, then the command WLOOKUP with its place in the opcode map. -/

namespace Sys2Proof.Machine

/-! ### Half words and indices (R104, R105) -/

theorem toInt_highHalf (w : Word) : (highHalf w).toInt = (w.extractLsb' 16 16).toInt :=
  BitVec.toInt_signExtend_of_le (by decide)

theorem toInt_lowHalf (w : Word) : (lowHalf w).toInt = (w.extractLsb' 0 16).toInt :=
  BitVec.toInt_signExtend_of_le (by decide)

/-- "equals asr(s32(w), 16)" (R104). -/
theorem highHalf_eq_sshiftRight (w : Word) : highHalf w = w.sshiftRight 16 := by
  refine BitVec.eq_of_getLsbD_eq fun k hk => ?_
  rw [highHalf, BitVec.getLsbD_signExtend, BitVec.getLsbD_sshiftRight]
  by_cases hlow : k < 16
  · have hk' : 16 + k < 32 := by omega
    simp [hlow, hk, hk', Nat.not_le.2 hk]
  · have hk' : ¬ 16 + k < 32 := by omega
    simp [hlow, hk, hk', Nat.not_le.2 hk, BitVec.msb_eq_getLsbD_last]

theorem half_toInt_bounds (h : Half) : -32768 ≤ h.toInt ∧ h.toInt ≤ 32767 :=
  ⟨h.le_toInt, BitVec.toInt_le⟩

theorem wromIndex_eq_toNat_setWidth (v : Word) : wromIndex v = (v.setWidth 14).toNat := by
  rw [wromIndex, BitVec.toNat_and, BitVec.toNat_setWidth]
  exact Nat.and_two_pow_sub_one_eq_mod v.toNat 14

theorem wromIndex_eq_emod (v : Word) : (wromIndex v : Int) = v.toInt % 16384 := by
  rw [wromIndex_eq_toNat_setWidth, BitVec.toNat_setWidth, BitVec.toInt_eq_toNat_cond]
  split <;> omega

/-! ### The samples by quadrants (R101)

`r` is the position in the quadrant. -/

section Quadrants

variable (quarter : List (BitVec 15)) {r : Nat}

theorem waveSample_rising (hr : r < 4096) : waveSample quarter r = quarterSample quarter r := by
  have hq : r / 4096 % 4 = 0 := by omega
  simp only [waveSample, hq, Nat.mod_eq_of_lt hr]

theorem waveSample_mirrored (hr : r < 4096) :
    waveSample quarter (4096 + r) = quarterSample quarter (4095 - r) := by
  have hq : (4096 + r) / 4096 % 4 = 1 := by omega
  have hm : (4096 + r) % 4096 = r := by omega
  simp only [waveSample, hq, hm]

theorem waveSample_negated (hr : r < 4096) : waveSample quarter (8192 + r) = -quarterSample quarter r := by
  have hq : (8192 + r) / 4096 % 4 = 2 := by omega
  have hm : (8192 + r) % 4096 = r := by omega
  simp only [waveSample, hq, hm]
  exact BitVec.zero_sub _

theorem waveSample_mirrored_negated (hr : r < 4096) :
    waveSample quarter (12288 + r) = -quarterSample quarter (4095 - r) := by
  have hq : (12288 + r) / 4096 % 4 = 3 := by omega
  have hm : (12288 + r) % 4096 = r := by omega
  simp only [waveSample, hq, hm]
  exact BitVec.zero_sub _

theorem waveSample_eq_sampleByQuadrant {i : Nat} (hi : i < 16384) :
    waveSample quarter i = sampleByQuadrant quarter i := by
  unfold sampleByQuadrant
  split_ifs with h0 h1 h2
  · exact waveSample_rising quarter h0
  · obtain ⟨r, rfl⟩ := Nat.exists_eq_add_of_le (not_lt.1 h0)
    rw [waveSample_mirrored quarter (by omega), show 8191 - (4096 + r) = 4095 - r by omega]
    rfl
  · obtain ⟨r, rfl⟩ := Nat.exists_eq_add_of_le (not_lt.1 h1)
    rw [waveSample_negated quarter (by omega), Nat.add_sub_cancel_left]
    rfl
  · obtain ⟨r, rfl⟩ := Nat.exists_eq_add_of_le (not_lt.1 h2)
    rw [waveSample_mirrored_negated quarter (by omega), show 16383 - (12288 + r) = 4095 - r by omega]
    rfl

/-- R103 over R101's quadrants. -/
theorem wromWord_eq_sampleByQuadrant {i : Nat} (hi : i < 16384) :
    wromWord quarter i = sampleByQuadrant quarter i ++ sampleByQuadrant quarter ((i + 4096) % 16384) := by
  rw [wromWord, Nat.mod_eq_of_lt hi, waveSample_eq_sampleByQuadrant quarter hi,
    waveSample_eq_sampleByQuadrant quarter (Nat.mod_lt _ (by decide))]

end Quadrants

/-! ### Submitting a command -/

section Submission

variable {s : State}

theorem exec_of_busy (h : s.isBusy = true) (i : Instr) : exec i s = .next (s.reject .busyReject) := by
  obtain ⟨effect, he⟩ := exec_eq_submit i
  rw [he, submit_of_busy h]

/-- A command whose effect leaves the sequencer idle sets DONE besides that effect, and nothing else. -/
theorem submit_of_idle_of_seq_eq {effect : State → State} (h : s.seq = .idle) (he : (effect s).seq = s.seq) :
    s.submit effect = .next { effect s with done := true } := by
  rw [submit_of_idle h, State.complete, ← h, ← he]

theorem exec_wlookup (idx : Nat) (s : State) :
    exec (.wlookup idx) s = s.submit fun s => { s with lookup := wromWord s.params.quarter idx } := rfl

end Submission

/-! ### Fields of command words (30_encoding.md R80) -/

/-- Words are equal when they agree in bits 31:30, 29:16, 15:8 and 7:0. -/
theorem word_eq_iff_fields {u v : Word} :
    u = v ↔ u.extractLsb' 30 2 = v.extractLsb' 30 2 ∧ u.extractLsb' 16 14 = v.extractLsb' 16 14 ∧
      u.extractLsb' 8 8 = v.extractLsb' 8 8 ∧ u.extractLsb' 0 8 = v.extractLsb' 0 8 := by
  refine ⟨fun h => h ▸ ⟨rfl, rfl, rfl, rfl⟩, fun h => BitVec.eq_of_toNat_eq ?_⟩
  simp only [← BitVec.toNat_inj, BitVec.extractLsb'_toNat, Nat.shiftRight_eq_div_pow] at h
  omega

/-- The decoder on a word whose OP has the row `row` (30_encoding.md R85, R87). -/
theorem decode_of_row {w : Word} {op : Nat} {row : OpRow} (hop : opField w = op) (hrow : opTable[op]? = some row) :
    decode w = if w &&& row.mask = row.pattern then .ok (assemble op w) else .error .reservedField := by
  simp only [decode, hop, hrow]

/-- WLOOKUP's fixed bits: its opcode, and zero in bits 15:8 and 31:30 (30_encoding.md R81). -/
theorem wlookup_mask_iff {w : Word} (hop : opField w = 7) :
    w &&& 0xC000FFFF = 0x00000007 ↔ w.extractLsb' 8 8 = 0 ∧ w.extractLsb' 30 2 = 0 := by
  have hop' : w.extractLsb' 0 8 = 7#8 := BitVec.eq_of_toNat_eq hop
  have hlow : w.extractLsb' 8 8 &&& 255#8 = w.extractLsb' 8 8 := BitVec.and_allOnes
  have htop : w.extractLsb' 30 2 &&& 3#2 = w.extractLsb' 30 2 := BitVec.and_allOnes
  rw [word_eq_iff_fields]
  simp [BitVec.extractLsb'_and, hop', hlow, htop, and_comm]

/-! ### The statements -/

/-- Settles O20: the high half is the arithmetic shift, and a 16-bit value bounds both. -/
theorem halvesAreSignExtended : Obligations.HalvesAreSignExtended := by
  intro w
  have hshift : (highHalf w).toInt = w.toInt / 65536 := by
    rw [highHalf_eq_sshiftRight, BitVec.toInt_sshiftRight, Int.shiftRight_eq_div_pow]
    rfl
  obtain ⟨hlo, hhi⟩ := half_toInt_bounds (w.extractLsb' 16 16)
  obtain ⟨llo, lhi⟩ := half_toInt_bounds (w.extractLsb' 0 16)
  rw [← toInt_highHalf] at hlo hhi
  rw [← toInt_lowHalf] at llo lhi
  exact ⟨toInt_highHalf w, hshift, toInt_lowHalf w, hlo, hhi, llo, lhi⟩

/-- Settles O21: an index is the low 14 bits of its sum. -/
theorem wromIndexIsModulo : Obligations.WromIndexIsModulo := by
  refine fun v => ⟨wromIndex_eq_emod v, fun u hbits => ?_⟩
  have hlow : u.setWidth 14 = v.setWidth 14 :=
    BitVec.eq_of_getLsbD_eq fun k hk => by simpa [hk] using hbits k hk
  rw [wromIndex_eq_toNat_setWidth, wromIndex_eq_toNat_setWidth, hlow]

/-- Settles O40: the meaning while idle and while busy, and WLOOKUP's row of the opcode map. -/
theorem wlookupReadsTheWaveform : Obligations.WlookupReadsTheWaveform := by
  refine ⟨fun s idx hs hidx => ?_, fun s idx hb => exec_of_busy hb _, fun w hop => ?_⟩
  · rw [exec_wlookup, submit_of_idle_of_seq_eq hs rfl, wromWord_eq_sampleByQuadrant _ hidx]
  · rw [decode_of_row hop rfl]
    exact if_congr (wlookup_mask_iff hop) rfl rfl

end Sys2Proof.Machine

/-! # The gradient ROM's table read

41_gradient_rom.md R120 to R125 and R127: the channel formulas over the integers, the range in which Y, U and V fit
their bytes, the packed entry as a sum, then the command GLOOKUP with its place in the opcode map. -/

namespace Sys2Proof.Machine

/-! ### The channels R, G and B (R121 to R123) -/

theorem gradR_eq (k : Nat) : gradR k = 4 * k := by
  unfold gradR
  omega

/-- R122 over the integers: for j in 0..1024 neither subtraction of `gradG` truncates. -/
theorem natCast_gradG {j : Nat} (hj : j ≤ 1024) :
    (gradG j : ℤ) = (268435456 - 256 * (1024 - (j : ℤ)) ^ 2) / 1048576 := by
  have hsq : 256 * (1024 - j) ^ 2 ≤ 256 * 2 ^ 20 :=
    Nat.mul_le_mul_left 256 (Nat.pow_le_pow_left (Nat.sub_le 1024 j) 2)
  rw [gradG, Int.natCast_ediv, Nat.cast_sub hsq]
  push_cast [Nat.cast_sub hj]
  rfl

/-- Below j = 1024 the square of R122 is positive, so G stays below 256. -/
theorem gradG_le {j : Nat} (hj : j < 1024) : gradG j ≤ 255 := by
  have hsq : 0 < (1024 - j) ^ 2 := Nat.pow_pos (Nat.sub_pos_of_lt hj)
  unfold gradG
  omega

theorem natCast_gradB {r g : Nat} (h : r + g ≤ 512) : (gradB r g : ℤ) = (512 - ((r : ℤ) + g)) / 2 := by
  unfold gradB
  omega

/-! ### The packed entry (R120, R124, R125) -/

/-- Channels that fit their bytes are packed with nothing dropped. -/
theorem setWidth_packColor {y u v : ℤ} (hy : 0 ≤ y ∧ y < 256) (hu : 0 ≤ u ∧ u < 256) (hv : 0 ≤ v ∧ v < 256) :
    (packColor y u v).setWidth 32 = BitVec.ofInt 32 (65536 * y + 256 * u + v) := by
  have hbyte (a : ℤ) : (BitVec.ofInt 8 a).toNat < 2 ^ 8 := (BitVec.ofInt 8 a).isLt
  apply BitVec.eq_of_toNat_eq
  rw [packColor, BitVec.toNat_setWidth, BitVec.toNat_append, BitVec.toNat_append,
    ← Nat.shiftLeft_add_eq_or_of_lt (hbyte u), ← Nat.shiftLeft_add_eq_or_of_lt (hbyte v)]
  simp only [BitVec.toNat_ofInt, Nat.shiftLeft_eq]
  omega

/-- The channels the model packs are those of `entryChannels`. -/
theorem gromEntry_eq_packColor {g : Nat} (hg : g < 65536) :
    gromEntry g = packColor (entryChannels g).1 (entryChannels g).2.1 (entryChannels g).2.2 := by
  have hslot : g / 1024 % 64 = g / 1024 := Nat.mod_eq_of_lt (by omega)
  have hj : g % 1024 < 1024 := Nat.mod_lt _ (by decide)
  have hgreen : gradG (g % 1024) ≤ 255 := gradG_le hj
  have hsum : 4 * (g / 1024) + gradG (g % 1024) ≤ 512 := by omega
  simp only [gromEntry, entryChannels, hslot, gradY, gradU, gradV, gradR_eq, natCast_gradB hsum, natCast_gradG hj.le,
    Nat.cast_mul, Nat.cast_ofNat]

/-- Y, U and V need no clamp (R124): with B written out each is bounded by R in 0..252 and G in 0..255. -/
theorem entryChannels_range {g : Nat} (hg : g < 65536) :
    (0 ≤ (entryChannels g).1 ∧ (entryChannels g).1 < 256) ∧
      (0 ≤ (entryChannels g).2.1 ∧ (entryChannels g).2.1 < 256) ∧
      (0 ≤ (entryChannels g).2.2 ∧ (entryChannels g).2.2 < 256) := by
  have hj : g % 1024 < 1024 := Nat.mod_lt _ (by decide)
  have hgreen : gradG (g % 1024) ≤ 255 := gradG_le hj
  have hr : g / 1024 < 64 := by omega
  simp only [entryChannels, ← natCast_gradG hj.le]
  omega

/-- R125 over the integer channels, zero-extended as R127 reads it. -/
theorem setWidth_gromEntry {g : Nat} (hg : g < 65536) :
    (gromEntry g).setWidth 32 =
      BitVec.ofInt 32 (65536 * (entryChannels g).1 + 256 * (entryChannels g).2.1 + (entryChannels g).2.2) := by
  obtain ⟨hy, hu, hv⟩ := entryChannels_range hg
  rw [gromEntry_eq_packColor hg, setWidth_packColor hy hu hv]

/-! ### The command (R127, 30_encoding.md R81) -/

theorem exec_glookup (gidx : Nat) (s : State) :
    exec (.glookup gidx) s = s.submit fun s => { s with lookup := (gromEntry gidx).setWidth 32 } := rfl

/-- GLOOKUP's fixed bits: its opcode, and zero in bits 15:8. -/
theorem glookup_mask_iff {w : Word} (hop : opField w = 8) :
    w &&& 0x0000FFFF = 0x00000008 ↔ w.extractLsb' 8 8 = 0 := by
  have hop' : w.extractLsb' 0 8 = 8#8 := BitVec.eq_of_toNat_eq hop
  have hlow : w.extractLsb' 8 8 &&& 255#8 = w.extractLsb' 8 8 := BitVec.and_allOnes
  rw [word_eq_iff_fields]
  simp [BitVec.extractLsb'_and, hop', hlow]

/-! ### The statement -/

/-- Settles O41: the meaning while idle and while busy, and GLOOKUP's row of the opcode map. -/
theorem glookupReadsTheGradient : Obligations.GlookupReadsTheGradient := by
  refine ⟨fun s gidx hs hgidx => ?_, fun s gidx hb => exec_of_busy hb _, fun w hop => ?_⟩
  · rw [exec_glookup, submit_of_idle_of_seq_eq hs rfl, setWidth_gromEntry hgidx]
  · rw [decode_of_row hop rfl]
    exact if_congr (glookup_mask_iff hop) rfl rfl

end Sys2Proof.Machine

/-! # The curve engine

42_curve_engine.md R143 to R147. A frame is its 64 slots in order (`framePoints_eq_flatMap`): the entries of one slot
are iterates of the curve step (`getElem?_slotPoints`), and folding over its points is the inner loop of R147
(`foldl_slotPoints`). Then the commands CSTEP and RENDER with their places in the opcode map. -/

namespace Sys2Proof.Machine

/-! ### The points of a slot (R143, R144) -/

section Slot

variable (quarter : List (BitVec 15)) (ip1 ip2 : Word)

/-- The curve step on the pair (x, y) of a slot's point state (R141). -/
def pairStep (p : Word × Word) : Word × Word := curveStep quarter ip1 ip2 p.1 p.2

theorem length_slotPoints (n g : Nat) (x y : Word) : (slotPoints quarter ip1 ip2 n g x y).length = n := by
  induction n generalizing g x y with
  | zero => rfl
  | succ n ih => rw [slotPoints, List.length_cons, ih]

theorem getElem?_slotPoints {n j : Nat} (hj : j < n) (g : Nat) (x y : Word) :
    (slotPoints quarter ip1 ip2 n g x y)[j]? =
      some ⟨((pairStep quarter ip1 ip2)^[j + 1] (x, y)).1, ((pairStep quarter ip1 ip2)^[j + 1] (x, y)).2,
        gromEntry (g + j)⟩ := by
  induction n generalizing j g x y with
  | zero => exact absurd hj (Nat.not_lt_zero j)
  | succ n ih =>
    cases j with
    | zero => rfl
    | succ j =>
      rw [slotPoints, List.getElem?_cons_succ, ih (Nat.lt_of_succ_lt_succ hj), Function.iterate_succ_apply _ (j + 1),
        Nat.add_right_comm g 1 j]
      rfl

/-- One turn of R147's inner loop, `plot` being what it does with a point: the slot's point state and memory after
iteration j. -/
def loopTurn (plot : Memory → Point → Memory) (g : Nat) (acc : Word × Word × Memory) (j : Nat) :
    Word × Word × Memory :=
  let p := curveStep quarter ip1 ip2 acc.1 acc.2.1
  (p.1, p.2, plot acc.2.2 ⟨p.1, p.2, gromEntry (g + j)⟩)

/-- R147's inner loop goes over the points of the slot in order. -/
theorem foldl_slotPoints (plot : Memory → Point → Memory) (n g : Nat) (x y : Word) (m : Memory) :
    (slotPoints quarter ip1 ip2 n g x y).foldl plot m =
      ((List.range n).foldl (loopTurn quarter ip1 ip2 plot g) (x, y, m)).2.2 := by
  induction n generalizing g x y m with
  | zero => rfl
  | succ n ih =>
    have hturn : (fun acc j => loopTurn quarter ip1 ip2 plot g acc (j + 1)) =
        loopTurn quarter ip1 ip2 plot (g + 1) := by
      funext acc j
      rw [loopTurn, loopTurn, Nat.add_right_comm g 1 j]
      rfl
    rw [slotPoints, List.foldl_cons, ih, List.range_succ_eq_map, List.foldl_cons, List.foldl_map, hturn]
    rfl

end Slot

/-! ### The slots of a frame (R143) -/

section Frame

variable (quarter : List (BitVec 15))

/-- Stepping an accumulator and then adding `i` increments is adding `i + 1` of them. -/
theorem add_ofNat_mul_succ (ip : Word) (inc i : Nat) :
    ip + BitVec.ofNat 32 inc + BitVec.ofNat 32 (i * inc) = ip + BitVec.ofNat 32 ((i + 1) * inc) := by
  rw [BitVec.add_assoc, ← BitVec.ofNat_add, Nat.succ_mul, Nat.add_comm inc]

theorem slotsFrom_eq_flatMap (n k : Nat) (ip1 ip2 : Word) :
    slotsFrom quarter n k ip1 ip2 = (List.range n).flatMap fun i =>
      slotPoints quarter (ip1 + BitVec.ofNat 32 (i * 278)) (ip2 + BitVec.ofNat 32 (i * 10430)) iterations
        ((k + i) * iterations) 0 0 := by
  induction n generalizing k ip1 ip2 with
  | zero => rfl
  | succ n ih =>
    rw [slotsFrom, ih, List.range_succ_eq_map, List.flatMap_cons, List.flatMap_map]
    simp only [ang1inc, ang2inc, add_ofNat_mul_succ, Nat.zero_mul, BitVec.ofNat_eq_ofNat, BitVec.add_zero,
      Nat.add_zero, Nat.succ_eq_add_one, Nat.add_right_comm k 1, Nat.add_assoc]

/-- The points of slot k of the frame with Animation Phase t (R143, R144). -/
def frameSlot (t : Word) (k : Nat) : List Point :=
  slotPoints quarter (t + BitVec.ofNat 32 (k * 278)) (t + BitVec.ofNat 32 (k * 10430)) iterations (k * iterations) 0 0

theorem framePoints_eq_flatMap (t : Word) :
    framePoints quarter t = (List.range slots).flatMap (frameSlot quarter t) := by
  rw [framePoints, slotsFrom_eq_flatMap]
  simp only [Nat.zero_add]
  rfl

theorem length_frameSlot (t : Word) (k : Nat) : (frameSlot quarter t k).length = iterations :=
  length_slotPoints ..

end Frame

section EqualBlocks

variable {α : Type} {block : Nat → List α} {c : Nat} (hblock : ∀ k, (block k).length = c)

include hblock

theorem length_flatMap_range (n : Nat) : ((List.range n).flatMap block).length = n * c := by
  simp [List.length_flatMap, hblock]

/-- Entry j of block k in a row of blocks of one length. -/
theorem getElem?_flatMap_range {n k j : Nat} (hk : k < n) (hj : j < c) :
    ((List.range n).flatMap block)[k * c + j]? = (block k)[j]? := by
  induction n with
  | zero => exact absurd hk (Nat.not_lt_zero k)
  | succ n ih =>
    have hlen := length_flatMap_range hblock n
    rw [List.range_succ, List.flatMap_append, List.flatMap_singleton]
    obtain hlt | rfl := Nat.lt_succ_iff_lt_or_eq.1 hk
    · have hin : k * c + j < n * c := by
        calc k * c + j < (k + 1) * c := by rw [Nat.succ_mul]; omega
          _ ≤ n * c := Nat.mul_le_mul_right c hlt
      rw [List.getElem?_append_left (hlen ▸ hin), ih hlt]
    · rw [List.getElem?_append_right (hlen ▸ Nat.le_add_right _ _), hlen, Nat.add_sub_cancel_left]

end EqualBlocks

/-! ### The commands (R146, R147, 30_encoding.md R81) -/

theorem wromIndex_eq_mod (v : Word) : wromIndex v = v.toNat % 16384 := by
  rw [wromIndex_eq_toNat_setWidth, BitVec.toNat_setWidth]

theorem exec_cstep (s : State) : exec .cstep s = s.submit fun s =>
    { s with
      ptX := (curveStep s.params.quarter s.p1 s.p2 s.ptX s.ptY).1
      ptY := (curveStep s.params.quarter s.p1 s.p2 s.ptX s.ptY).2 } := rfl

theorem exec_render (s : State) : exec .render s = s.submit fun s =>
    { s with mem := s.renderBank s.active s.mem } := rfl

/-- R147's outer loop runs the inner one once for each slot. -/
theorem renderBank_eq_foldl (s : State) (bank : Bank) (m : Memory) :
    s.renderBank bank m = (List.range slots).foldl (fun m k =>
      ((List.range iterations).foldl
        (loopTurn s.params.quarter (s.phase + BitVec.ofNat 32 (k * 278)) (s.phase + BitVec.ofNat 32 (k * 10430))
          (s.plotPoint bank) (k * iterations)) (0, 0, m)).2.2) m := by
  rw [State.renderBank, framePoints_eq_flatMap, List.foldl_flatMap]
  simp only [frameSlot, foldl_slotPoints]

/-- A command without operands is decoded from its own word only (30_encoding.md R81, R87). -/
theorem decode_of_full_mask {w : Word} {op : Nat} {name : String} {pattern : Word} (hop : opField w = op)
    (hrow : opTable[op]? = some ⟨name, pattern, 0xFFFFFFFF⟩) :
    decode w = if w = pattern then .ok (assemble op w) else .error .reservedField := by
  have hmask : w &&& 0xFFFFFFFF = w := BitVec.and_allOnes
  rw [decode_of_row hop hrow, hmask]

/-! ### The statements -/

/-- Settles O28: a frame is 64 slots of 1024 points, each the next iterate of its slot's curve step. -/
theorem frameTraversal : Obligations.FrameTraversal := by
  refine fun quarter t => ⟨?_, fun k j hk hj => ?_⟩
  · rw [framePoints_eq_flatMap, length_flatMap_range (length_frameSlot quarter t)]
    rfl
  · rw [framePoints_eq_flatMap, getElem?_flatMap_range (length_frameSlot quarter t) hk hj]
    exact getElem?_slotPoints quarter _ _ hj _ 0 0

/-- Settles O42: the meaning while idle and while busy, and CSTEP's row of the opcode map. -/
theorem cstepStepsThePoint : Obligations.CstepStepsThePoint := by
  refine ⟨fun s hs => ?_, fun s hb => exec_of_busy hb _, fun w hop => decode_of_full_mask hop rfl⟩
  rw [exec_cstep, submit_of_idle_of_seq_eq hs rfl]
  simp only [curveStep, wromIndex_eq_mod]

/-- Settles O45: the meaning while idle and while busy, and RENDER's row of the opcode map. -/
theorem renderRunsTheFrame : Obligations.RenderRunsTheFrame := by
  refine ⟨fun s hs => ?_, fun s hb => exec_of_busy hb _, fun w hop => decode_of_full_mask hop rfl⟩
  rw [exec_render, submit_of_idle_of_seq_eq hs rfl, renderBank_eq_foldl]
  unfold loopTurn
  simp only

end Sys2Proof.Machine

/-! # The packer and compositor

43_compositor.md R160 to R166. The transform over the integers, the packed word as masks and shifts, the bytes that
one word write (`Memory.readByte_writeWord`) and a run of clear writes (`readByte_clearWords`) leave, then the
commands PLOT and CLEAR with their places in the opcode map. -/

namespace Sys2Proof.Machine

/-! ### The transform and the plot target (R160, R161, R163) -/

section Plot

variable (s : State)

theorem toInt_sshiftRight_14 (w : Word) : (w.sshiftRight 14).toInt = w.toInt / 16384 := by
  rw [BitVec.toInt_sshiftRight, Int.shiftRight_eq_div_pow]
  rfl

theorem toInt_xform (v pan : Word) :
    (s.xform v pan).toInt =
      Int.bmod (Int.bmod (v.toInt * s.scalemul.toInt) (2 ^ 32) / 16384 + pan.toInt) (2 ^ 32) := by
  rw [State.xform, BitVec.toInt_add, toInt_sshiftRight_14, BitVec.toInt_mul]

theorem inBounds_iff (px py : Word) :
    s.inBounds px py = true ↔
      0 ≤ px.toInt ∧ px.toInt < s.params.width ∧ 0 ≤ py.toInt ∧ py.toInt < s.params.height :=
  decide_eq_true_iff

theorem plotTarget_eq_ite (bank : Bank) (x y : Word) : s.plotTarget bank x y =
    if s.inBounds (s.xform x s.xpan) (s.xform y s.ypan) = true then
      some (s.fbAddr bank (s.xform x s.xpan).toNat (s.xform y s.ypan).toNat, s.xform x s.xpan)
    else none := rfl

variable {s} {bank : Bank} {m : Memory} {x y px py : Word} {c : Color}

theorem plotPoint_of_inBounds (hx : px = s.xform x s.xpan) (hy : py = s.xform y s.ypan)
    (h : s.inBounds px py = true) :
    s.plotPoint bank m ⟨x, y, c⟩ = m.writeWord (s.fbAddr bank px.toNat py.toNat)
      (pack (m.readWord (s.fbAddr bank px.toNat py.toNat)) px c) := by
  subst hx hy
  rw [State.plotPoint, plotTarget_eq_ite, if_pos h]

theorem plotPoint_of_not_inBounds (hx : px = s.xform x s.xpan) (hy : py = s.xform y s.ypan)
    (h : ¬ s.inBounds px py = true) : s.plotPoint bank m ⟨x, y, c⟩ = m := by
  subst hx hy
  rw [State.plotPoint, plotTarget_eq_ite, if_neg h]

end Plot

/-! ### The packed word (R162) -/

section Pack

theorem getLsbD_zero_eq_false_iff (px : Word) : px.getLsbD 0 = false ↔ px.toNat % 2 = 0 := by
  rw [BitVec.getLsbD, Nat.testBit_zero, decide_eq_false_iff_not]
  omega

theorem setWidth_append_byte {n : Nat} (x : BitVec n) (d : Byte) :
    (x ++ d).setWidth 32 = x.setWidth 32 <<< 8 ||| d.setWidth 32 := by
  refine BitVec.eq_of_getLsbD_eq fun k hk => ?_
  rw [BitVec.getLsbD_setWidth, BitVec.getLsbD_append, BitVec.getLsbD_or, BitVec.getLsbD_shiftLeft,
    BitVec.getLsbD_setWidth, BitVec.getLsbD_setWidth]
  by_cases hlow : k < 8
  · simp [hlow]
  · have hd : d.getLsbD k = false := BitVec.getLsbD_of_ge d k (by omega)
    have hk' : k - 8 < 32 := by omega
    simp [hlow, hk, hk', hd]

/-- Four bytes from the high end down, as one word. -/
theorem append_bytes_eq_or (a b c d : Byte) :
    a ++ b ++ c ++ d =
      a.setWidth 32 <<< 24 ||| b.setWidth 32 <<< 16 ||| c.setWidth 32 <<< 8 ||| d.setWidth 32 := by
  have hword : (a ++ b ++ c ++ d).setWidth 32 = a ++ b ++ c ++ d := BitVec.setWidth_eq _
  rw [← hword]
  simp only [setWidth_append_byte, BitVec.shiftLeft_or_distrib, ← BitVec.shiftLeft_add]

/-- A word under the mask of the byte whose lowest bit is bit `k`. -/
theorem and_byteMask (w : Word) (k : Nat) :
    w &&& ((BitVec.allOnes 8).setWidth 32 <<< k) = (w.extractLsb' k 8).setWidth 32 <<< k := by
  refine BitVec.eq_of_getLsbD_eq fun i hi => ?_
  rw [BitVec.getLsbD_and, BitVec.getLsbD_shiftLeft, BitVec.getLsbD_shiftLeft, BitVec.getLsbD_setWidth,
    BitVec.getLsbD_setWidth, BitVec.getLsbD_allOnes, BitVec.getLsbD_extractLsb']
  by_cases hk : i < k
  · simp [hk]
  · have hki : k + (i - k) = i := by omega
    simp [hk, hi, hki, Bool.and_comm, Bool.and_assoc, Bool.and_left_comm]

theorem setWidth_lumaOdd (w : Word) : (lumaOdd w).setWidth 32 <<< 8 = w &&& 0x0000FF00 := (and_byteMask w 8).symm

theorem setWidth_lumaEven (w : Word) : (lumaEven w).setWidth 32 <<< 24 = w &&& 0xFF000000 := (and_byteMask w 24).symm

variable {w px : Word} {c : Color}

theorem pack_of_even (h : px.toNat % 2 = 0) : pack w px c = colorY c ++ colorU c ++ lumaOdd w ++ colorV c :=
  if_pos ((getLsbD_zero_eq_false_iff px).2 h)

theorem pack_of_odd (h : px.toNat % 2 = 1) : pack w px c = lumaEven w ++ colorU c ++ colorY c ++ colorV c :=
  if_neg fun hb => absurd ((getLsbD_zero_eq_false_iff px).1 hb) (by omega)

end Pack

/-! ### The bytes of a word (20_memory.md R64) -/

section WordBytes

/-- The byte that a word stored at `a` puts at `a + i`: big-endian. -/
def wordByte (v : Word) (i : Nat) : Byte := v.extractLsb' (24 - 8 * i) 8

theorem Memory.readByte_writeWord (m : Memory) (a b v : Word) :
    (m.writeWord a v).readByte b =
      if (b - a).toNat < 4 then wordByte v (b - a).toNat else m.readByte b := by
  have hoff (i : Nat) (hi : i < 4) : b = a + BitVec.ofNat 32 i ↔ (b - a).toNat = i := by
    rw [add_comm, ← sub_eq_iff_eq_add, ← BitVec.toNat_inj, BitVec.toNat_ofNat, Nat.mod_eq_of_lt (by omega)]
  have h0 : b = a ↔ (b - a).toNat = 0 := by simpa using hoff 0 (by decide)
  have h1 : b = a + 1 ↔ (b - a).toNat = 1 := hoff 1 (by decide)
  have h2 : b = a + 2 ↔ (b - a).toNat = 2 := hoff 2 (by decide)
  have h3 : b = a + 3 ↔ (b - a).toNat = 3 := hoff 3 (by decide)
  simp only [Memory.writeWord, Memory.readByte_writeByte, h0, h1, h2, h3]
  generalize (b - a).toNat = d
  match d with
  | 0 => rfl
  | 1 => rfl
  | 2 => rfl
  | 3 => rfl
  | _ + 4 => rfl

theorem wordBytes_append (v : Word) : wordByte v 0 ++ wordByte v 1 ++ wordByte v 2 ++ wordByte v 3 = v := by
  have h01 : wordByte v 0 ++ wordByte v 1 = v.extractLsb' 16 16 :=
    BitVec.extractLsb'_append_extractLsb'_eq_extractLsb' rfl
  have h012 : v.extractLsb' 16 16 ++ wordByte v 2 = v.extractLsb' 8 24 :=
    BitVec.extractLsb'_append_extractLsb'_eq_extractLsb' rfl
  have h0123 : v.extractLsb' 8 24 ++ wordByte v 3 = v.extractLsb' 0 32 :=
    BitVec.extractLsb'_append_extractLsb'_eq_extractLsb' rfl
  rw [h01, h012, h0123, BitVec.extractLsb'_eq_self]

theorem Memory.readWord_eq_of_bytes {m : Memory} {a v : Word}
    (h : ∀ i < 4, m.readByte (a + BitVec.ofNat 32 i) = wordByte v i) : m.readWord a = v := by
  have h0 : m.readByte a = wordByte v 0 := by simpa using h 0 (by decide)
  have h1 : m.readByte (a + 1) = wordByte v 1 := h 1 (by decide)
  have h2 : m.readByte (a + 2) = wordByte v 2 := h 2 (by decide)
  have h3 : m.readByte (a + 3) = wordByte v 3 := h 3 (by decide)
  rw [readWord, h0, h1, h2, h3, wordBytes_append]

theorem toNat_add_ofNat_sub (a : Word) {i : Nat} (hi : i < 2 ^ 32) : (a + BitVec.ofNat 32 i - a).toNat = i := by
  rw [add_sub_cancel_left, BitVec.toNat_ofNat, Nat.mod_eq_of_lt hi]

@[simp] theorem Memory.readWord_writeWord_self (m : Memory) (a v : Word) : (m.writeWord a v).readWord a = v := by
  refine readWord_eq_of_bytes fun i hi => ?_
  rw [readByte_writeWord, toNat_add_ofNat_sub a (by omega), if_pos hi]

end WordBytes

/-! ### The bytes of a cleared bank (R164) -/

section Clear

variable {s : State} {bank : Bank}

/-- Where a byte lies relative to word `c` of a bank, by its offset in the bank. -/
theorem toNat_sub_bankWordAddr {c : Nat} (hc : 4 * (c + 1) ≤ 2 ^ 32) (a : Word) :
    ((a - s.bankWordAddr bank c).toNat < 4 ↔
        4 * c ≤ (a - s.fbBase bank).toNat ∧ (a - s.fbBase bank).toNat < 4 * (c + 1)) ∧
      ((a - s.bankWordAddr bank c).toNat < 4 →
        (a - s.bankWordAddr bank c).toNat = (a - s.fbBase bank).toNat % 4) := by
  have hlt := (a - s.fbBase bank).isLt
  rw [State.bankWordAddr, sub_add_eq_sub_sub, BitVec.toNat_sub, BitVec.toNat_ofNat]
  omega

/-- The clear writes of words c to c + n - 1: BG_WORD's bytes at the offsets of those words, and no other byte. -/
theorem readByte_clearWords {n c : Nat} (hn : 4 * (c + n) ≤ 2 ^ 32) (m : Memory) (a : Word) :
    (s.clearWords bank n c m).readByte a =
      if 4 * c ≤ (a - s.fbBase bank).toNat ∧ (a - s.fbBase bank).toNat < 4 * (c + n) then
        wordByte s.params.bgWord ((a - s.fbBase bank).toNat % 4)
      else m.readByte a := by
  induction n generalizing c m with
  | zero => rw [if_neg (by omega), State.clearWords]
  | succ n ih =>
    obtain ⟨hword, hbyte⟩ := toNat_sub_bankWordAddr (s := s) (bank := bank) (c := c) (by omega) a
    rw [State.clearWords, ih (by omega), Memory.readByte_writeWord]
    by_cases hc : (a - s.bankWordAddr bank c).toNat < 4
    · have hoff := hword.1 hc
      rw [if_neg (by omega), if_pos hc, if_pos (by omega), hbyte hc]
    · rw [if_neg hc]
      refine if_congr ?_ rfl rfl
      rw [hword] at hc
      omega

/-- A bank is its words (20_memory.md R61). -/
theorem inBank_iff (ha : s.params.Admissible) {a : Word} :
    s.inBank bank a = true ↔ (a - s.fbBase bank).toNat < 4 * wordCount s.params := by
  have heven : s.params.width % 2 = 0 := ha.1
  have hsize : 2 * s.params.width * s.params.height = 4 * wordCount s.params := by
    rw [wordCount, ← Nat.mul_assoc]
    congr 1
    omega
  rw [State.inBank, decide_eq_true_iff, hsize]

/-- A bank is smaller than the address space (00_scope.md R6). -/
theorem four_mul_wordCount_le {p : Params} (ha : p.Admissible) : 4 * wordCount p ≤ 2 ^ 31 := by
  obtain ⟨-, -, hwidth, -, hheight, -⟩ := ha
  have hhalf : p.width / 2 ≤ 16384 := by omega
  exact Nat.mul_le_mul_left 4 (Nat.mul_le_mul hhalf hheight)

theorem readByte_clearBank (ha : s.params.Admissible) (m : Memory) (a : Word) :
    (s.clearBank bank m).readByte a =
      if s.inBank bank a = true then wordByte s.params.bgWord ((a - s.fbBase bank).toNat % 4)
      else m.readByte a := by
  have hcount := four_mul_wordCount_le ha
  rw [State.clearBank, readByte_clearWords (by omega)]
  exact if_congr (by rw [inBank_iff ha]; omega) rfl rfl

theorem readWord_clearBank (ha : s.params.Admissible) (m : Memory) {c : Nat} (hc : c < wordCount s.params) :
    (s.clearBank bank m).readWord (s.bankWordAddr bank c) = s.params.bgWord := by
  have hcount := four_mul_wordCount_le ha
  refine Memory.readWord_eq_of_bytes fun i hi => ?_
  have hoff : (s.bankWordAddr bank c + BitVec.ofNat 32 i - s.fbBase bank).toNat = 4 * c + i := by
    rw [State.bankWordAddr, add_assoc, ← BitVec.ofNat_add, toNat_add_ofNat_sub _ (by omega)]
  have hin : s.inBank bank (s.bankWordAddr bank c + BitVec.ofNat 32 i) = true := by
    rw [inBank_iff ha, hoff]
    omega
  have hbyte : (4 * c + i) % 4 = i := by omega
  rw [readByte_clearBank ha, if_pos hin, hoff, hbyte]

end Clear

/-! ### The commands (R165, R166, 30_encoding.md R81) -/

theorem exec_plot_of_idle {s : State} (hs : s.seq = .idle) : exec .plot s = .next
    { s with mem := s.plotPoint s.active s.mem ⟨s.ptX, s.ptY, s.ptColor⟩, done := true } :=
  submit_of_idle_of_seq_eq
    (effect := fun s => s.setMem (s.plotPoint s.active s.mem ⟨s.ptX, s.ptY, s.ptColor⟩)) hs rfl

theorem exec_clear_of_idle {s : State} (b : Nat) (hs : s.seq = .idle) : exec (.clear b) s = .next
    { s with mem := s.clearBank (bankOf b) s.mem, done := true } :=
  submit_of_idle_of_seq_eq (effect := fun s => s.setMem (s.clearBank (bankOf b) s.mem)) hs rfl

/-- Words are equal when they agree in bits 31:9, 8 and 7:0. -/
theorem word_eq_iff_bankFields {u v : Word} :
    u = v ↔ u.extractLsb' 9 23 = v.extractLsb' 9 23 ∧ u.extractLsb' 8 1 = v.extractLsb' 8 1 ∧
      u.extractLsb' 0 8 = v.extractLsb' 0 8 := by
  refine ⟨fun h => h ▸ ⟨rfl, rfl, rfl⟩, fun h => BitVec.eq_of_toNat_eq ?_⟩
  simp only [← BitVec.toNat_inj, BitVec.extractLsb'_toNat, Nat.shiftRight_eq_div_pow] at h
  omega

/-- CLEAR's fixed bits: its opcode, and zero in bits 31:9. -/
theorem clear_mask_iff {w : Word} (hop : opField w = 1) :
    w &&& 0xFFFFFEFF = 0x00000001 ↔ w.extractLsb' 9 23 = 0 := by
  have hop' : w.extractLsb' 0 8 = 1#8 := BitVec.eq_of_toNat_eq hop
  have htop : w.extractLsb' 9 23 &&& 0x7FFFFF#23 = w.extractLsb' 9 23 := BitVec.and_allOnes
  rw [word_eq_iff_bankFields]
  simp [BitVec.extractLsb'_and, hop', htop]

/-! ### The statements -/

/-- Settles O31: `toInt` of the product, the shift and the sum, and the two uses in a plot. -/
theorem transformWrapsAndFloors : Obligations.TransformWrapsAndFloors :=
  ⟨toInt_xform, plotTarget_eq_ite⟩

/-- Settles O32: the four bytes put in place, a kept luma as the mask of its byte. -/
theorem packMatchesTheFieldFormula : Obligations.PackMatchesTheFieldFormula := by
  refine fun w px c => ⟨fun heven => ?_, fun hodd => ?_⟩
  · rw [pack_of_even heven, append_bytes_eq_or, setWidth_lumaOdd, colorY, colorU, colorV]
  · rw [pack_of_odd hodd, append_bytes_eq_or, setWidth_lumaEven, colorY, colorU, colorV]
    rfl

/-- Settles O43: inside the surface one word write, outside none; then the rejection and PLOT's row of the opcode
map. -/
theorem plotWritesOnePackedWord : Obligations.PlotWritesOnePackedWord := by
  refine ⟨fun s px py addr hs hx hy haddr => ⟨fun hin => ?_, fun hout => ?_⟩, fun s hb => exec_of_busy hb _,
    fun w hop => decode_of_full_mask hop rfl⟩
  · refine ⟨_, exec_plot_of_idle hs, ?_⟩
    rw [plotPoint_of_inBounds hx hy ((inBounds_iff s px py).2 hin)]
    have haddr' : s.fbAddr s.active px.toNat py.toNat = addr := haddr.symm
    rw [haddr']
    exact ⟨Memory.readWord_writeWord_self _ _ _, fun a => Memory.readByte_writeWord_outside _ _⟩
  · rw [exec_plot_of_idle hs, plotPoint_of_not_inBounds hx hy (mt (inBounds_iff s px py).1 hout)]

/-- Settles O44: the bytes of the cleared bank word by word; then the rejection and CLEAR's row of the opcode map. -/
theorem clearFillsTheBank : Obligations.ClearFillsTheBank := by
  refine ⟨fun s b ha hs _ => ?_, fun s b hb => exec_of_busy hb _, fun w hop => ?_⟩
  · refine ⟨_, exec_clear_of_idle b hs, fun c hc => readWord_clearBank ha s.mem hc, fun a hout => ?_⟩
    rw [readByte_clearBank ha, if_neg (by simp [bankOf, hout])]
  · rw [decode_of_row hop rfl]
    exact if_congr (clear_mask_iff hop) rfl rfl

end Sys2Proof.Machine

/-! # The frame control commands

44_frame_control.md R180 to R183. What NOP, PRESENT, ADVANCE, RENDER and DRAW leave when an idle block takes them, and
that RENDER's plots look at neither DONE nor the state's own memory (`renderBank_of_mem_done`), so that RENDER after a
completed CLEAR plots what DRAW plots after its clear. -/

namespace Sys2Proof.Machine

section FrameControl

variable {s : State}

/-! ### The commands from an idle block -/

theorem exec_nop_of_idle (hs : s.seq = .idle) : exec .nop s = .next { s with done := true } :=
  submit_of_idle_of_seq_eq (effect := fun s => s) hs rfl

theorem exec_present_of_idle (hs : s.seq = .idle) : exec .present s = .next
    { s with
      presented := s.active
      active := if s.trails = true then s.active else 1 - s.active
      done := true } :=
  submit_of_idle_of_seq_eq
    (effect := fun s => { s with presented := s.active, active := if s.trails then s.active else 1 - s.active }) hs rfl

theorem exec_advance_of_idle (hs : s.seq = .idle) :
    exec .advance s = .next { s with phase := s.phase + s.speed, done := true } :=
  submit_of_idle_of_seq_eq (effect := fun s => { s with phase := s.phase + s.speed }) hs rfl

theorem exec_render_of_idle (hs : s.seq = .idle) :
    exec .render s = .next { s with mem := s.renderBank s.active s.mem, done := true } := by
  rw [exec_render, submit_of_idle_of_seq_eq hs rfl]

theorem exec_draw (s : State) : exec .draw s = s.submit fun s =>
    { s with mem := s.drawBank s.active s.mem } := rfl

theorem exec_draw_of_idle (hs : s.seq = .idle) :
    exec .draw s = .next { s with mem := s.drawBank s.active s.mem, done := true } := by
  rw [exec_draw, submit_of_idle_of_seq_eq hs rfl]

/-! ### DRAW's two parts (R181) -/

theorem drawBank_of_trails (ht : s.trails = true) (bank : Bank) (m : Memory) :
    s.drawBank bank m = s.renderBank bank m := by
  rw [State.drawBank, if_pos ht]

theorem drawBank_of_not_trails (ht : ¬ s.trails = true) (bank : Bank) (m : Memory) :
    s.drawBank bank m = s.renderBank bank (s.clearBank bank m) := by
  rw [State.drawBank, if_neg ht]

theorem plotPoint_of_mem_done (s : State) (m' : Memory) (d : Bool) (bank : Bank) :
    State.plotPoint { s with mem := m', done := d } bank = s.plotPoint bank := rfl

/-- What RENDER plots, and where, does not depend on DONE or on the memory the state holds. -/
theorem renderBank_of_mem_done (s : State) (m' : Memory) (d : Bool) (bank : Bank) (m : Memory) :
    State.renderBank { s with mem := m', done := d } bank m = s.renderBank bank m := by
  rw [State.renderBank, plotPoint_of_mem_done, State.renderBank]

/-- The active bank, named by CLEAR's operand. -/
theorem exec_clear_active_of_idle (hs : s.seq = .idle) : exec (.clear s.active.toNat) s = .next
    { s with mem := s.clearBank s.active s.mem, done := true } := by
  rw [exec_clear_of_idle _ hs, bankOf, BitVec.ofNat_toNat, BitVec.setWidth_eq]

/-- RENDER on the state a CLEAR of the active bank has completed in. -/
theorem exec_render_after_clear (hs : s.seq = .idle) :
    exec .render { s with mem := s.clearBank s.active s.mem, done := true } =
      .next { s with mem := s.renderBank s.active (s.clearBank s.active s.mem), done := true } := by
  rw [exec_render_of_idle (s := { s with mem := s.clearBank s.active s.mem, done := true }) hs,
    renderBank_of_mem_done]

end FrameControl

/-! ### The statements -/

/-- Settles O46: by CTRL.TRAILS, RENDER alone, or RENDER after the CLEAR of the active bank; then the rejection and
DRAW's row of the opcode map. -/
theorem drawClearsThenRenders : Obligations.DrawClearsThenRenders := by
  refine ⟨fun s hs => ?_, fun s hb => exec_of_busy hb _, fun w hop => decode_of_full_mask hop rfl⟩
  rw [exec_draw_of_idle hs]
  by_cases ht : s.trails = true
  · rw [drawBank_of_trails ht]
    exact ⟨s, _, by rw [if_pos ht], exec_render_of_idle hs, rfl, rfl⟩
  · rw [drawBank_of_not_trails ht]
    exact ⟨_, _, by rw [if_neg ht, exec_clear_active_of_idle hs], exec_render_after_clear hs, rfl, rfl⟩

/-- Settles O37: NOP only completes, and DONE raises the interrupt line when IRQ_EN = 1. -/
theorem nopOnlyCompletes : Obligations.NopOnlyCompletes := by
  refine ⟨fun s hs => exec_nop_of_idle hs, fun s t hs ht => ?_, fun s hb => exec_of_busy hb _,
    fun w hop => decode_of_full_mask hop rfl⟩
  rw [exec_nop_of_idle hs, Host.Outcome.next.injEq] at ht
  subst ht
  simp [State.irq]

/-- Settles O38: PRESENT's completing step, whose outputs are those of the bank handed over. -/
theorem presentHandsOverAndSwaps : Obligations.PresentHandsOverAndSwaps :=
  ⟨fun _ hs => ⟨_, exec_present_of_idle hs, rfl, rfl, rfl⟩, fun _ hb => exec_of_busy hb _,
    fun _ hop => decode_of_full_mask hop rfl⟩

/-- Settles O39: ADVANCE's completing step, the rejection, and ADVANCE's row of the opcode map. -/
theorem advanceAddsSpeedToPhase : Obligations.AdvanceAddsSpeedToPhase :=
  ⟨fun _ hs => exec_advance_of_idle hs, fun _ hb => exec_of_busy hb _, fun _ hop => decode_of_full_mask hop rfl⟩

end Sys2Proof.Machine

/-! # Command words, STATUS and the interrupt line

60_exceptions.md R202 and R206 to R208. First which command words are accepted: the fields of 30_encoding.md R81 as
residues of the word (`fieldsLegal_iff_toNat`), which are those of the opcode map's row (`fieldsLegal_iff_of_row`).
Then the writes to STATUS and CTRL, when an engine turn completes (`isBusy_of_engineTurn`), and the only actions that
clear DONE (`act_clears_done`). -/

namespace Sys2Proof.Machine

section CommandWord

variable {s : State} {w : Word}

/-! ### The fields that must be zero (30_encoding.md R80, R81) -/

theorem opField_eq_mod (w : Word) : opField w = w.toNat % 256 := by
  simp [opField]

theorem extractLsb'_eq_zero_iff (w : Word) (start len : Nat) :
    w.extractLsb' start len = 0 ↔ w.toNat / 2 ^ start % 2 ^ len = 0 := by
  rw [← BitVec.toNat_inj, BitVec.extractLsb'_toNat, Nat.shiftRight_eq_div_pow]
  rfl

theorem fieldsLegal_iff_toNat (w : Word) : fieldsLegal w ↔
    w.toNat / 512 % 128 = 0 ∧ (opField w ≠ 1 → w.toNat / 256 % 2 = 0) ∧
      (opField w ≠ 7 → opField w ≠ 8 → w.toNat / 65536 % 65536 = 0) ∧
      (opField w = 7 → w.toNat / 1073741824 % 4 = 0) := by
  have hbit : w.getLsbD 8 = false ↔ w.toNat / 256 % 2 = 0 := by
    simp [BitVec.getLsbD, Nat.testBit_eq_decide_div_mod_eq]
  simp only [fieldsLegal, hbit, extractLsb'_eq_zero_iff, Nat.reducePow]

/-- For an opcode without operands every bit above OP must be zero. -/
theorem fieldsLegal_iff_full_mask {op : Nat} (hop : opField w = op) (h1 : op ≠ 1) (h7 : op ≠ 7) (h8 : op ≠ 8) :
    fieldsLegal w ↔ w &&& 0xFFFFFFFF = BitVec.ofNat 32 op := by
  have hmask : w &&& 0xFFFFFFFF = w := BitVec.and_allOnes
  have hw := w.isLt
  subst hop
  rw [hmask, fieldsLegal_iff_toNat, ← BitVec.toNat_inj, BitVec.toNat_ofNat]
  rw [opField_eq_mod] at h1 h7 h8 ⊢
  omega

theorem fieldsLegal_iff_of_clear (hop : opField w = 1) : fieldsLegal w ↔ w.extractLsb' 9 23 = 0 := by
  rw [fieldsLegal_iff_toNat, extractLsb'_eq_zero_iff]
  omega

theorem fieldsLegal_iff_of_wlookup (hop : opField w = 7) :
    fieldsLegal w ↔ w.extractLsb' 8 8 = 0 ∧ w.extractLsb' 30 2 = 0 := by
  rw [fieldsLegal_iff_toNat, extractLsb'_eq_zero_iff, extractLsb'_eq_zero_iff]
  omega

theorem fieldsLegal_iff_of_glookup (hop : opField w = 8) : fieldsLegal w ↔ w.extractLsb' 8 8 = 0 := by
  rw [fieldsLegal_iff_toNat, extractLsb'_eq_zero_iff]
  omega

/-! ### The row of the opcode map (30_encoding.md R85, R87) -/

theorem opTable_row_of_no_operand {op : Nat} {row : OpRow} (hrow : opTable[op]? = some row)
    (h1 : op ≠ 1) (h7 : op ≠ 7) (h8 : op ≠ 8) : row.mask = 0xFFFFFFFF ∧ row.pattern = BitVec.ofNat 32 op := by
  have hlt : op < 10 := (List.getElem?_eq_some_iff.1 hrow).1
  have hop : op = 0 ∨ op = 2 ∨ op = 3 ∨ op = 4 ∨ op = 5 ∨ op = 6 ∨ op = 9 := by omega
  rcases hop with rfl | rfl | rfl | rfl | rfl | rfl | rfl
  all_goals
    cases hrow
    exact ⟨rfl, rfl⟩

/-- R87: the fields are as required exactly when the word's fixed bits are its row's. -/
theorem fieldsLegal_iff_of_row {row : OpRow} (hrow : opTable[opField w]? = some row) :
    fieldsLegal w ↔ w &&& row.mask = row.pattern := by
  by_cases h1 : opField w = 1
  · rw [h1] at hrow
    cases hrow
    exact (fieldsLegal_iff_of_clear h1).trans (clear_mask_iff h1).symm
  by_cases h7 : opField w = 7
  · rw [h7] at hrow
    cases hrow
    exact (fieldsLegal_iff_of_wlookup h7).trans (wlookup_mask_iff h7).symm
  by_cases h8 : opField w = 8
  · rw [h8] at hrow
    cases hrow
    exact (fieldsLegal_iff_of_glookup h8).trans (glookup_mask_iff h8).symm
  obtain ⟨hmask, hpattern⟩ := opTable_row_of_no_operand hrow h1 h7 h8
  rw [hmask, hpattern, fieldsLegal_iff_full_mask rfl h1 h7 h8]

/-! ### A write to CMD (R202) -/

theorem decode_of_illegalOpcode (hop : 10 ≤ opField w) : decode w = .error .illegalOpcode := by
  have hnone : opTable[opField w]? = none := List.getElem?_eq_none hop
  simp only [decode, hnone]

theorem opTable_of_lt (hop : opField w < 10) : ∃ row, opTable[opField w]? = some row :=
  ⟨_, List.getElem?_eq_getElem hop⟩

theorem decode_of_not_fieldsLegal (hop : opField w < 10) (hf : ¬ fieldsLegal w) :
    decode w = .error .reservedField := by
  obtain ⟨row, hrow⟩ := opTable_of_lt hop
  rw [decode_of_row rfl hrow, if_neg (mt (fieldsLegal_iff_of_row hrow).2 hf)]

theorem decode_of_fieldsLegal (hop : opField w < 10) (hf : fieldsLegal w) :
    decode w = .ok (assemble (opField w) w) := by
  obtain ⟨row, hrow⟩ := opTable_of_lt hop
  rw [decode_of_row rfl hrow, if_pos ((fieldsLegal_iff_of_row hrow).1 hf)]

theorem writeReg_of_idle {r : Reg} {v : Word} (hb : s.isBusy = false) : s.writeReg r v = s.storeReg r v := by
  simp [State.writeReg, hb]

theorem writeReg_cmd_of_error {e : DecodeError} (hb : s.isBusy = false) (hd : decode w = .error e) :
    s.writeReg .cmd w = s.reject (errCodeOf e) := by
  simp only [writeReg_of_idle hb, State.storeReg, State.acceptWord, hd]

theorem writeReg_cmd_of_ok {i : Instr} (hb : s.isBusy = false) (hd : decode w = .ok i) :
    s.writeReg .cmd w = s.setSeq (.busy i .start) := by
  simp only [writeReg_of_idle hb, State.storeReg, State.acceptWord, hd]

end CommandWord

section Status

variable {s t : State} {v : Word} {r : Reg} {off : Byte}

/-! ### STATUS and CTRL (10_state.md R22, R23) -/

/-- Fields put side by side, as a sum. -/
theorem toNat_append_eq_add {m n : Nat} (x : BitVec m) (y : BitVec n) :
    (x ++ y).toNat = x.toNat * 2 ^ n + y.toNat := by
  rw [BitVec.toNat_append, ← Nat.shiftLeft_add_eq_or_of_lt y.isLt, Nat.shiftLeft_eq]

theorem toNat_statusWord (s : State) : s.statusWord.toNat =
    s.isBusy.toNat + 2 * s.done.toNat + 4 * s.err.toNat + 16 * s.errcode.bits.toNat + 256 * s.active.toNat +
      512 * s.presented.toNat := by
  simp only [State.statusWord, toNat_append_eq_add, BitVec.toNat_ofBool, BitVec.ofNat_eq_ofNat, BitVec.toNat_ofNat]
  omega

/-- A write-one-to-clear bit, as STATUS's rule reads (R22). -/
theorem and_not_eq_ite (a b : Bool) : (a && !b) = if b = true then false else a := by
  cases b <;> simp

theorem writeReg_ctrl_of_idle (hb : s.isBusy = false) :
    s.writeReg .ctrl v = { s with trails := v.getLsbD 0, irqEn := v.getLsbD 1 } :=
  writeReg_of_idle hb

@[simp] theorem writeReg_status : s.writeReg .status v = s.ackStatus v := writeReg_of_unguarded rfl

theorem regAt_eq_status_iff (hal : off.toNat % 4 = 0) : regAt off = .status ↔ off = 4 := by
  revert off
  decide

/-! ### The turn that completes a command (10_state.md R45) -/

/-- Whether the engine's next turn leaves the block idle, from the sequencer state: every command but those that access
memory completes at once, a clear or a frame after its last access. -/
def idleAfterTurn (p : Params) : Seq → Bool
  | .idle => true
  | .busy i .start => !touchesMemory i
  | .busy i (.clearing _ c) => decide (wordCount p ≤ c.toNat) && decide (i ≠ .draw)
  | .busy _ (.rendering f) => decide (slots ≤ f.k.toNat)
  | .busy _ (.plotting _ _) => false
  | .busy _ (.writing _) => false
  | .busy _ .finish => true

theorem isBusy_clearTurn (i : Instr) (bank : Bank) (c : Word) :
    (clearTurn i bank c s).isBusy = !(decide (wordCount s.params ≤ c.toNat) && decide (i ≠ .draw)) := by
  unfold clearTurn
  split
  case isTrue hc => simp [State.isBusy, hc]
  case isFalse hc => cases i <;> simp [State.isBusy, afterClear, not_lt.1 hc]

theorem isBusy_renderTurn (i : Instr) (f : FrameRegs) :
    (renderTurn i f s).isBusy = !decide (slots ≤ f.k.toNat) := by
  unfold renderTurn
  split
  case isTrue hk =>
    dsimp only
    repeat' split
    all_goals simp [State.isBusy, hk]
  case isFalse hk => simp [State.isBusy, not_lt.1 hk]

/-- 20_memory.md R68: the first step of a command that touches no memory is its meaning. -/
theorem engineStart_of_not_touchesMemory {i : Instr} (hi : touchesMemory i = false) :
    engineStart i s = exec i (s.setSeq .idle) := by
  cases i
  case clear | render | draw | plot => cases hi
  all_goals rfl

theorem isBusy_of_engineStart {i : Instr} (h : engineStart i s = .next t) : t.isBusy = touchesMemory i := by
  cases hi : touchesMemory i with
  | false =>
    rw [engineStart_of_not_touchesMemory hi] at h
    exact State.isBusy_of_idle (exec_completes_of_not_touchesMemory rfl hi h).1
  | true =>
    cases i
    case clear | render => cases h; rfl
    case draw | plot =>
      simp only [engineStart] at h
      split at h <;> (cases h; rfl)
    all_goals cases hi

theorem isBusy_of_engineTurn (h : engineTurn s = .next t) : t.isBusy = !idleAfterTurn s.params s.seq := by
  unfold engineTurn at h
  split at h
  case h_1 hs =>
    cases h
    simp [hs, idleAfterTurn, State.isBusy]
  case h_2 i p hs =>
    rw [hs]
    cases p with
    | start => simpa [idleAfterTurn] using isBusy_of_engineStart h
    | clearing bank c => cases h; exact isBusy_clearTurn i bank c
    | rendering f => cases h; exact isBusy_renderTurn i f
    | plotting f a | writing a | finish => cases h; rfl

/-! ### What each action does to DONE (R207) -/

theorem completing_turn_sets_done (hb : s.isBusy = true) (h : engineTurn s = .next t) (ht : t.isBusy = false) :
    t.done = true := by
  obtain ⟨hbusy, -⟩ | ⟨-, hdone, -⟩ := engineTurn_of_busy hb h
  · simp [ht] at hbusy
  · exact hdone

theorem exec_of_idle_sets_done {i : Instr} (hs : s.seq = .idle) :
    ∃ t, exec i s = .next t ∧ t.done = true ∧ t.seq = .idle := by
  obtain ⟨effect, he⟩ := exec_eq_submit i
  exact ⟨_, by rw [he, submit_of_idle hs], rfl, rfl⟩

theorem exec_keeps_done {i : Instr} (h : exec i s = .next t) (hd : s.done = true) : t.done = true := by
  cases hb : s.isBusy with
  | true =>
    rw [exec_of_busy hb] at h
    cases h
    exact hd
  | false =>
    obtain ⟨u, hu, hdone, -⟩ := exec_of_idle_sets_done (i := i) (State.isBusy_eq_false_iff.1 hb)
    rw [hu] at h
    cases h
    exact hdone

theorem syncWord_keeps_done {w : Word} (h : syncWord w s = .next t) (hd : s.done = true) : t.done = true := by
  unfold syncWord at h
  split at h
  · cases h
    exact hd
  · split at h
    · cases h
      exact hd
    · exact exec_keeps_done h hd

theorem engineTurn_keeps_done (h : engineTurn s = .next t) (hd : s.done = true) : t.done = true := by
  obtain ⟨-, rfl⟩ | ⟨i, -, -, he⟩ | ⟨i, p, q, -, rfl⟩ | ⟨i, p, q, a, v, -, rfl⟩ | ⟨i, p, -, rfl⟩ :=
    engineTurn_cases h
  · exact hd
  · exact exec_keeps_done he hd
  · exact hd
  · exact hd
  · rfl

theorem acceptWord_done (s : State) (w : Word) : (s.acceptWord w).done = s.done := by
  unfold State.acceptWord
  split <;> rfl

/-- Only a write to STATUS reaches DONE. -/
theorem writeReg_done (hr : r ≠ .status) : (s.writeReg r v).done = s.done := by
  unfold State.writeReg
  split
  · rfl
  · cases r
    case cmd => exact acceptWord_done s v
    case status => exact absurd rfl hr
    all_goals rfl

/-- An aligned write clears DONE only at STATUS's offset and with bit 1 set (R207). -/
theorem writeReg_clears_done (hal : off.toNat % 4 = 0) (hd : s.done = true)
    (h : (s.writeReg (regAt off) v).done = false) : off = 4 ∧ v.getLsbD 1 = true := by
  by_cases hr : regAt off = .status
  · rw [hr, writeReg_status, State.ackStatus_done, hd] at h
    exact ⟨(regAt_eq_status_iff hal).1 hr, by simpa using h⟩
  · rw [writeReg_done hr, hd] at h
    cases h

/-- R207: of all actions, only reset and a host write to STATUS with bit 1 set clear DONE. -/
theorem act_clears_done {e : Event} (h : act e s = .next t) (hd : s.done = true) (ht : t.done = false) :
    e = .rst ∨ ∃ v, v.getLsbD 1 = true ∧ (e = .write 4 .word v ∨ e = .writeWithEngine 4 v) := by
  have hne : ¬ t.done = true := by simp [ht]
  cases e with
  | engine => exact absurd (engineTurn_keeps_done h hd) hne
  | write off size v =>
    by_cases hacc : size = .word ∧ off.toNat % 4 = 0
    · obtain ⟨rfl, hal⟩ := hacc
      rw [act_write_of_aligned hal] at h
      cases h
      obtain ⟨rfl, hv⟩ := writeReg_clears_done hal hd ht
      exact .inr ⟨v, hv, .inl rfl⟩
    · rw [act_write_refused hacc] at h
      cases h
  | writeWithEngine off v =>
    simp only [act, windowAccepts_iff, true_and] at h
    split at h
    case isFalse => cases h
    case isTrue hal =>
      have hclear : (s.writeReg (regAt off) v).done = false := by
        split at h
        · exact Bool.eq_false_iff.2 fun hw => hne (engineTurn_keeps_done h hw)
        · cases h
          exact ht
      obtain ⟨rfl, hv⟩ := writeReg_clears_done hal hd hclear
      exact .inr ⟨v, hv, .inr rfl⟩
  | sync w => exact absurd (syncWord_keeps_done h hd) hne
  | wait =>
    simp only [act] at h
    split at h
    · exact absurd (engineTurn_keeps_done h hd) hne
    · cases h
      exact absurd hd hne
  | rst => exact .inl rfl
  | read off size =>
    simp only [act] at h
    split at h
    · cases h
      exact absurd hd hne
    · cases h
  | store a size v | load a size | hostFrame inp =>
    cases h
    exact absurd hd hne

end Status

/-! ### The statements -/

/-- Settles O4: by the sequencer, the opcode and the fields; the last clause is the row of the opcode map. -/
theorem commandWordAcceptance : Obligations.CommandWordAcceptance := by
  refine fun s w => ⟨fun hb => writeReg_of_busy_guarded hb rfl, fun hb hop => ?_, fun hb hop hf => ?_,
    fun hb hop hf => ?_, fun hop => ?_⟩
  · exact writeReg_cmd_of_error hb (decode_of_illegalOpcode hop)
  · exact writeReg_cmd_of_error hb (decode_of_not_fieldsLegal hop hf)
  · exact writeReg_cmd_of_ok hb (decode_of_fieldsLegal hop hf)
  · obtain ⟨row, hrow⟩ := opTable_of_lt hop
    simp [hrow, fieldsLegal_iff_of_row hrow]

/-- Settles O5: the write to STATUS leaves the sequencer as it is, so the engine's turn after it still completes and
sets DONE last. -/
theorem statusFieldsAndAcknowledge : Obligations.StatusFieldsAndAcknowledge := by
  refine ⟨fun s => ?_, fun s v => ?_, fun s t v hb h ht => ?_, fun s => rfl⟩
  · rw [toNat_statusWord]
    cases s.errcode <;> rfl
  · rw [writeReg_status, State.ackStatus, and_not_eq_ite, and_not_eq_ite]
  · obtain ⟨u, hu⟩ := engineTurn_next (s.ackStatus v)
    have hidle : u.isBusy = false := by
      rw [isBusy_of_engineTurn hu, ← ht, isBusy_of_engineTurn h]
      rfl
    refine ⟨u, ?_, hidle, completing_turn_sets_done (s := s.ackStatus v) hb hu hidle⟩
    rw [← hu, ← writeReg_status]
    exact if_pos hb

/-- Settles O13: a completion sets DONE, and only reset and a write to STATUS clear it. -/
theorem doneUntilTheHostClearsIt : Obligations.DoneUntilTheHostClearsIt := by
  refine ⟨fun i s hs => exec_of_idle_sets_done hs, fun s t hb h ht => completing_turn_sets_done hb h ht,
    fun s t h hd ht => ?_⟩
  unfold step stepOnce at h
  split at h
  case h_1 =>
    rw [engineTurn_keeps_done h hd] at ht
    cases ht
  case h_2 e rest hp =>
    obtain rfl | ⟨v, hv, rfl | rfl⟩ := act_clears_done h hd ht
    · exact .inl ⟨rest, hp⟩
    · exact .inr ⟨v, hv, rest, .inl hp⟩
    · exact .inr ⟨v, hv, rest, .inr hp⟩

/-- Settles O12: a write of 6 to STATUS clears DONE and ERR, a write to CTRL sets IRQ_EN to its bit 1. -/
theorem interruptLevel : Obligations.InterruptLevel := by
  refine ⟨fun s => by simp [State.irq], fun s => ?_, fun s v hb hv => ?_⟩
  · simp [State.irq]
  · rw [writeReg_ctrl_of_idle hb, State.irq, hv, Bool.false_and]

end Sys2Proof.Machine

/-! # Reset

70_reset_and_hazards.md R240 and R241. First the reset values: each fits its register, and SCALEMUL's, computed with pi
to 20 decimals, is the truncation of the real product, because no integer lies between n times these decimals and n
times pi (`succ_piDigits_mul_lt`). Then a run of engine turns in front of a reset: an engine turn neither reads nor
changes the coming actions (`engineTurn_setPending`), so it is the same turns with no agent about to act. -/

namespace Sys2Proof.Machine

/-! ### SCALEMUL's reset value (10_state.md R28, log entry 26) -/

section ScaleMul

variable {n m : ℕ}

/-- No integer m lies between n times pi's 20 decimals and n times these decimals with the last one raised: 355 / 113
is so little above pi that m would be at least 355 / 113 * n, and that is above the second product. -/
theorem succ_piDigits_mul_lt (hn : n ≤ 16384) (h : n * piDigits < m * piUnit) : n * (piDigits + 1) < m * piUnit := by
  simp only [piDigits, piUnit] at *
  have hconvergent : 355 * n ≤ 113 * m := by omega
  linarith

theorem piDigits_lt_pi : (piDigits : ℝ) / piUnit < Real.pi :=
  lt_of_eq_of_lt (by norm_num [piDigits, piUnit]) Real.pi_gt_d20

theorem pi_lt_succ_piDigits : Real.pi < ((piDigits + 1 : ℕ) : ℝ) / piUnit :=
  Real.pi_lt_d20.trans_eq (by norm_num [piDigits, piUnit])

/-- The truncation of n * pi needs no more than pi's 20 decimals, for every n = HEIGHT div 2 of 00_scope.md R6. -/
theorem floor_mul_pi (hn : n ≤ 16384) : ⌊(n : ℝ) * Real.pi⌋₊ = n * piDigits / piUnit := by
  have hunit : (0 : ℝ) < piUnit := by norm_num [piUnit]
  rw [Nat.floor_eq_iff (by positivity)]
  constructor
  · calc ((n * piDigits / piUnit : ℕ) : ℝ) ≤ ((n * piDigits : ℕ) : ℝ) / piUnit := Nat.cast_div_le
      _ = n * ((piDigits : ℝ) / piUnit) := by push_cast; ring
      _ ≤ n * Real.pi := by gcongr; exact piDigits_lt_pi.le
  · have hlt : n * (piDigits + 1) < (n * piDigits / piUnit + 1) * piUnit :=
      succ_piDigits_mul_lt hn (Nat.lt_mul_of_div_lt (Nat.lt_succ_self _) (by norm_num [piUnit]))
    calc (n : ℝ) * Real.pi ≤ n * (((piDigits + 1 : ℕ) : ℝ) / piUnit) := by gcongr; exact pi_lt_succ_piDigits.le
      _ < ((n * piDigits / piUnit : ℕ) : ℝ) + 1 := by
        rw [← mul_div_assoc, div_lt_iff₀ hunit]
        exact_mod_cast hlt

end ScaleMul

section Reset

variable {s t : State} {p : Params} {i : Instr}

theorem toNat_scalemulReset (hh : p.height ≤ 32768) :
    (scalemulReset p).toNat = ⌊((p.height / 2 : ℕ) : ℝ) * Real.pi⌋₊ := by
  rw [floor_mul_pi (by omega), scalemulReset, BitVec.toNat_ofNat]
  simp only [piDigits, piUnit]
  omega

/-! ### The reset state (R240) -/

theorem statusWord_applyReset : s.applyReset.statusWord = 0x00000200 := by
  simp [State.statusWord, State.isBusy, ErrCode.bits]

theorem ctrlWord_applyReset : s.applyReset.ctrlWord = 0 := by
  simp [State.ctrlWord]

theorem fbBase_applyReset (b : Bank) : s.applyReset.fbBase b = 0 := by
  simp [State.fbBase]

theorem applyReset_atResetValues (hw : s.params.width ≤ 32768) (hh : s.params.height ≤ 32768) :
    s.applyReset.AtResetValues := by
  have toNat_of_le {x : ℕ} (hx : x ≤ 32768) : (BitVec.ofNat 32 x).toNat = x :=
    Nat.mod_eq_of_lt (by omega)
  exact ⟨rfl, statusWord_applyReset, ctrlWord_applyReset, rfl, rfl, toNat_of_le (by omega), toNat_of_le (by omega),
    toNat_scalemulReset hh, toNat_of_le hw, toNat_of_le hh, rfl, rfl, rfl, rfl, rfl, rfl, fbBase_applyReset 0,
    fbBase_applyReset 1, rfl, rfl, rfl, fbBase_applyReset 1⟩

theorem applyReset_resetWith : (State.resetWith p).applyReset = State.resetWith p := rfl

theorem config_width_le : Config.params.width ≤ 32768 := by
  have := Config.halfWidthLessOne.isLt
  simp only [Config.params]
  omega

theorem config_height_le : Config.params.height ≤ 32768 := Config.heightLessOne.isLt

theorem step_of_rst_pending {rest : List Event} (h : s.pending = .rst :: rest) :
    step s = .next (s.setPending rest).applyReset := by
  simp only [step, stepOnce, h, act]

/-- R215: with no action to come, an idle block stays as it is. -/
theorem step_of_idle_of_no_pending (hs : s.seq = .idle) (h : s.pending = []) : step s = .next s := by
  simp only [step, stepOnce, h, engineTurn, hs]

/-! ### The engine does not look at the coming actions -/

theorem clearTurn_setPending (bank : Bank) (c : Word) (l : List Event) :
    clearTurn i bank c (s.setPending l) = (clearTurn i bank c s).setPending l := by
  unfold clearTurn
  rw [State.setPending_params]
  by_cases hc : c.toNat < wordCount s.params
  · rw [if_pos hc, if_pos hc]
    rfl
  · rw [if_neg hc, if_neg hc]
    cases i <;> rfl

theorem plotRead_setPending (bank : Bank) (pt : Point) (l : List Event) :
    (s.setPending l).plotRead bank pt = s.plotRead bank pt := rfl

theorem renderTurn_setPending (f : FrameRegs) (l : List Event) :
    renderTurn i f (s.setPending l) = (renderTurn i f s).setPending l := by
  simp only [renderTurn, plotRead_setPending, State.setPending_params]
  repeat' split
  all_goals rfl

theorem engineStart_setPending (h : engineStart i s = .next t) (l : List Event) :
    engineStart i (s.setPending l) = .next (t.setPending l) := by
  cases i
  case draw =>
    cases ht : s.trails <;> (simp only [engineStart, State.setPending_trails, ht] at h ⊢; cases h; rfl)
  case plot =>
    cases hr : s.plotRead s.active ⟨s.ptX, s.ptY, s.ptColor⟩ <;>
      (simp only [engineStart, plotRead_setPending, State.setPending_active, State.setPending_ptX,
        State.setPending_ptY, State.setPending_ptColor, hr] at h ⊢; cases h; rfl)
  all_goals
    cases h
    rfl

theorem engineTurn_setPending (h : engineTurn s = .next t) (l : List Event) :
    engineTurn (s.setPending l) = .next (t.setPending l) := by
  unfold engineTurn at *
  rw [State.setPending_seq]
  split at h
  case h_1 hs =>
    cases h
    rfl
  case h_2 i p hs =>
    cases p with
    | start => exact engineStart_setPending h l
    | clearing bank c => cases h; exact congrArg _ (clearTurn_setPending bank c l)
    | rendering f => cases h; exact congrArg _ (renderTurn_setPending f l)
    | plotting f a | writing a | finish => cases h; rfl

/-! ### Engine turns in front of other actions -/

theorem coreRun_succ_of_step {M : Host.Core} {a b : M.State} (h : M.step a = .next b) (k : ℕ) :
    M.run (k + 1) a = M.run k b := by
  rw [Host.Core.run, h]

/-- Engine turns that are next in the list run as they do with no agent about to act; then the rest of the list is to
come. -/
theorem run_engines_append {n : ℕ} {l : List Event} (k : ℕ) (hp : s.pending = List.replicate n .engine ++ l)
    (h : engineTurns n (s.setPending []) = .next t) :
    Host.Core.run core (n + k) s = Host.Core.run core k (t.setPending l) := by
  induction n generalizing s with
  | zero =>
    cases h
    rw [Nat.zero_add, ← hp.trans (List.nil_append l)]
    rfl
  | succ n ih =>
    obtain ⟨u, hu⟩ := engineTurn_next s
    have hstep : step s = .next (u.setPending (List.replicate n .engine ++ l)) := by
      simp only [step, stepOnce, hp, List.replicate_succ, List.cons_append, act]
      exact engineTurn_setPending hu _
    have hturns : engineTurns n (u.setPending []) = .next t := by
      rw [← h, engineTurns, engineTurn_setPending hu []]
    rw [Nat.succ_add, coreRun_succ_of_step (M := core) hstep]
    exact ih rfl hturns

end Reset

/-! ### The statements -/

/-- Settles O14: a reset puts every register at its reset value, and the machine starts as one reset leaves it. -/
theorem resetFromAnyState : Obligations.ResetFromAnyState := by
  refine ⟨fun s rest hadm hp => ?_, ?_, fun s => step_of_idle_of_no_pending⟩
  · obtain ⟨-, -, hw, -, hh, -⟩ := hadm
    exact ⟨_, step_of_rst_pending hp, applyReset_atResetValues hw hh, rfl, rfl⟩
  · rw [State.reset, ← applyReset_resetWith]
    exact applyReset_atResetValues config_width_le config_height_le

/-- Settles O15: the engine turns in front of the reset run as with no agent about to act, and reset keeps memory. -/
theorem resetKeepsThePerformedPrefix : Obligations.ResetKeepsThePerformedPrefix := by
  intro s t n rest hp h
  refine ⟨(t.setPending rest).applyReset, ?_, rfl, rfl, rfl, rfl⟩
  rw [run_engines_append 1 hp h]
  exact coreRun_succ_of_step (M := core) (step_of_rst_pending rfl) 0

end Sys2Proof.Machine

/-! # What one step of the machine can do

Every step is said once (`step_cases`): around the block it changes at most the fields of `State.SurroundedBy`, and the
block itself does nothing, takes an engine turn, runs a submitted command, stores one register or is reset. With what
a command (`exec_of_idle_cases`) and an engine turn keep of the registers, the statements about who changes a register
follow: 10_state.md R22, R24, R25, R41, R45, 60_exceptions.md R200 and R216, 70_reset_and_hazards.md R242 and R250. -/

namespace Sys2Proof.Machine

section StepCases

variable {s t u : State} {i : Instr} {e : Event} {off : Byte} {v : Word}

/-! ### The registers after a command -/

/-- A completed command, register by register: the fields no command writes, and the command that writes each bank
number and the phase. -/
theorem exec_of_idle_cases (hs : s.seq = .idle) (h : exec i s = .next t) :
    t = { s with
      seq := .idle, done := true, active := t.active, presented := t.presented, phase := t.phase, ptX := t.ptX,
      ptY := t.ptY, lookup := t.lookup, mem := t.mem } ∧
    (i ≠ .present → t.active = s.active ∧ t.presented = s.presented) ∧ (i ≠ .advance → t.phase = s.phase) := by
  rw [← State.setSeq_idle_self hs] at h
  cases i <;> cases h
  case present => exact ⟨rfl, fun hi => absurd rfl hi, fun _ => rfl⟩
  case advance => exact ⟨rfl, fun _ => ⟨rfl, rfl⟩, fun hi => absurd rfl hi⟩
  all_goals exact ⟨rfl, fun _ => ⟨rfl, rfl⟩, fun _ => rfl⟩

/-! ### What stays the same around the block -/

/-- `u` has the sequencer, the registers but STATUS.DONE, ERR and ERRCODE, and the parameters of `s`, and memory stays
in its canonical form. -/
def State.SameRegisters (s u : State) : Prop :=
  u = { s with
    done := u.done, err := u.err, errcode := u.errcode, mem := u.mem, pending := u.pending, busData := u.busData,
    host := u.host } ∧ (s.mem.wf = true → u.mem.wf = true)

theorem State.SameRegisters.refl (s : State) : s.SameRegisters s := ⟨rfl, id⟩

theorem State.SameRegisters.trans (h : s.SameRegisters t) (h' : t.SameRegisters u) : s.SameRegisters u := by
  obtain ⟨ht, hwf⟩ := h
  obtain ⟨hu, hwf'⟩ := h'
  exact ⟨by rw [hu, ht], hwf' ∘ hwf⟩

theorem State.SameRegisters.idle (h : s.SameRegisters u) (hs : s.seq = .idle) : u.seq = .idle := by
  rw [h.1]
  exact hs

theorem State.SameRegisters.setPending (s : State) (l : List Event) : s.SameRegisters (s.setPending l) := ⟨rfl, id⟩

theorem State.SameRegisters.reject (s : State) (c : ErrCode) : s.SameRegisters (s.reject c) := ⟨rfl, id⟩

/-- A write to a busy block reaches at most the bits of STATUS (10_state.md R41). -/
theorem writeReg_of_busy_sameRegisters (hb : s.isBusy = true) (r : Reg) (v : Word) :
    s.SameRegisters (s.writeReg r v) := by
  cases hr : r.guarded with
  | true =>
    rw [writeReg_of_busy_guarded hb hr]
    exact .reject s _
  | false =>
    rw [writeReg_of_unguarded hr]
    cases r
    case status => exact ⟨rfl, id⟩
    case width | height | lookup | reserved => exact .refl s
    all_goals cases hr

/-! ### One action and one step -/

/-- What the action `e` has done to `s` when it answers `t`. -/
inductive ActResult (e : Event) (s t : State) : Prop
  | stays (h : s.SameRegisters t)
  | engine (u : State) (hu : s.SameRegisters u) (h : engineTurn u = .next t)
  | command (w : Word) (i : Instr) (hs : s.seq = .idle) (he : e = .sync w) (hd : decode w = .ok i)
      (h : exec i s = .next t)
  | store (off : Byte) (v : Word) (hs : s.seq = .idle) (hal : off.toNat % 4 = 0)
      (he : e = .write off .word v ∨ e = .writeWithEngine off v) (h : t = s.storeReg (regAt off) v)
  | reset (he : e = .rst) (h : t = s.applyReset)

theorem syncWord_cases {w : Word} (h : syncWord w s = .next t) : ActResult (.sync w) s t := by
  unfold syncWord at h
  split at h
  · cases h
    exact .stays ((State.SameRegisters.reject s _).trans (.setPending _ _))
  case isFalse hb =>
    have hs : s.seq = .idle := State.isBusy_eq_false_iff.1 (by simpa using hb)
    split at h
    · cases h
      exact .stays (.reject s _)
    case h_2 i hd => exact .command w i hs rfl hd h

theorem act_cases (h : act e s = .next t) : ActResult e s t := by
  cases e with
  | engine => exact .engine s (.refl s) h
  | write off size v =>
    by_cases hacc : size = .word ∧ off.toNat % 4 = 0
    · obtain ⟨rfl, hal⟩ := hacc
      rw [act_write_of_aligned hal] at h
      cases h
      cases hb : s.isBusy with
      | true => exact .stays (writeReg_of_busy_sameRegisters hb _ v)
      | false => exact .store off v (State.isBusy_eq_false_iff.1 hb) hal (.inl rfl) (writeReg_of_idle hb)
    · rw [act_write_refused hacc] at h
      cases h
  | read off size =>
    by_cases hacc : size = .word ∧ off.toNat % 4 = 0
    · obtain ⟨rfl, hal⟩ := hacc
      rw [act_read_of_aligned hal] at h
      cases h
      exact .stays ⟨rfl, id⟩
    · rw [act_read_refused hacc] at h
      cases h
  | writeWithEngine off v =>
    simp only [act, windowAccepts_iff, true_and] at h
    split at h
    case isFalse => cases h
    case isTrue hal =>
      split at h
      case isTrue hb => exact .engine _ (writeReg_of_busy_sameRegisters hb _ v) h
      case isFalse hb =>
        have hidle : s.isBusy = false := by simpa using hb
        cases h
        exact .store off v (State.isBusy_eq_false_iff.1 hidle) hal (.inr rfl) (writeReg_of_idle hidle)
  | sync w => exact syncWord_cases h
  | wait =>
    simp only [act] at h
    split at h
    · exact .engine _ (.setPending s _) h
    · cases h
      exact .stays (.refl s)
  | store a size v =>
    cases h
    exact .stays ⟨rfl, s.mem.wf_store a size v⟩
  | load a size | hostFrame inp =>
    cases h
    exact .stays ⟨rfl, id⟩
  | rst =>
    cases h
    exact .reset rfl rfl

/-- What a step of `s` has done when it answers `t`; `u` is `s` but for what `State.SameRegisters` leaves open. -/
inductive StepResult (s t : State) : Prop
  | stays (h : s.SameRegisters t)
  | engine (u : State) (hu : s.SameRegisters u) (h : engineTurn u = .next t)
  | command (u : State) (hu : s.SameRegisters u) (i : Instr) (hs : s.seq = .idle) (hi : s.runsNext i)
      (h : exec i u = .next t)
  | store (u : State) (hu : s.SameRegisters u) (off : Byte) (v : Word) (hs : s.seq = .idle)
      (hal : off.toNat % 4 = 0) (hw : s.writeNext off v) (h : t = u.storeReg (regAt off) v)
  | reset (u : State) (hu : s.SameRegisters u) (hr : s.resetNext) (h : t = u.applyReset)

theorem step_cases (h : step s = .next t) : StepResult s t := by
  unfold step stepOnce at h
  split at h
  case h_1 => exact .engine s (.refl s) h
  case h_2 e rest hp =>
    have hrest := State.SameRegisters.setPending s rest
    cases act_cases h with
    | stays h => exact .stays (hrest.trans h)
    | engine u hu h => exact .engine u (hrest.trans hu) h
    | command w i hs he hd h => exact .command _ hrest i hs (.inr ⟨hs, w, rest, he ▸ hp, hd⟩) h
    | store off v hs hal he h =>
      refine .store _ hrest off v hs hal ⟨rest, ?_⟩ h
      obtain rfl | rfl := he
      · exact .inl hp
      · exact .inr hp
    | reset he h => exact .reset _ hrest ⟨rest, he ▸ hp⟩ h

/-! ### The registers after an engine turn and after a store -/

/-- An engine turn, register by register: the fields no command writes, and the command whose completing step writes
each bank number and the phase. -/
theorem engineTurn_registers (h : engineTurn s = .next t) :
    t = { s with
      seq := t.seq, done := t.done, active := t.active, presented := t.presented, phase := t.phase, ptX := t.ptX,
      ptY := t.ptY, lookup := t.lookup, mem := t.mem } ∧
    (s.seq ≠ .busy .present .start → t.active = s.active ∧ t.presented = s.presented) ∧
    (s.seq ≠ .busy .advance .start → t.phase = s.phase) := by
  obtain ⟨-, rfl⟩ | ⟨i, hs, -, he⟩ | ⟨i, p, q, -, rfl⟩ | ⟨i, p, q, a, v, -, rfl⟩ | ⟨i, p, -, rfl⟩ :=
    engineTurn_cases h
  case inr.inl =>
    obtain ⟨hframe, hbanks, hphase⟩ := exec_of_idle_cases rfl he
    rw [hs]
    exact ⟨by rw [hframe]; rfl, fun hi => hbanks fun e => hi (e ▸ rfl), fun hi => hphase fun e => hi (e ▸ rfl)⟩
  all_goals exact ⟨rfl, fun _ => ⟨rfl, rfl⟩, fun _ => rfl⟩

/-- A stored register, by the fields each register's write reaches. -/
theorem storeReg_registers (s : State) (r : Reg) (v : Word) :
    (s.storeReg r v).active = s.active ∧ (s.storeReg r v).presented = s.presented ∧
      (s.storeReg r v).params = s.params ∧ (s.storeReg r v).mem = s.mem ∧
      (s.storeReg r v).phase = (if r = .phase then v else s.phase) ∧
      (s.storeReg r v).speed = (if r = .speed then v else s.speed) := by
  cases r
  case cmd =>
    simp only [State.storeReg, State.acceptWord]
    split <;> exact ⟨rfl, rfl, rfl, rfl, rfl, rfl⟩
  all_goals exact ⟨rfl, rfl, rfl, rfl, rfl, rfl⟩

theorem regAt_eq_phase_iff (hal : off.toNat % 4 = 0) : regAt off = .phase ↔ off = 0x0C := by
  revert off
  decide

theorem regAt_eq_speed_iff (hal : off.toNat % 4 = 0) : regAt off = .speed ↔ off = 0x10 := by
  revert off
  decide

end StepCases

/-! ### The statements -/

/-- Settles O53: of the five kinds of step only PRESENT's completing step and reset reach the bank numbers. -/
theorem banksChangeOnlyByPresentOrReset : Obligations.BanksChangeOnlyByPresentOrReset := by
  intro s t h hne
  by_contra hnone
  obtain ⟨hreset, hpresent⟩ := not_or.1 hnone
  have hkept : t.active = s.active ∧ t.presented = s.presented := by
    cases step_cases h with
    | stays ht => exact ⟨by rw [ht.1], by rw [ht.1]⟩
    | engine u hu h =>
      obtain ⟨-, hbanks, -⟩ := engineTurn_registers h
      rw [hu.1] at hbanks
      exact hbanks fun hseq => hpresent (.inl hseq)
    | command u hu i hs hi h =>
      obtain ⟨-, hbanks, -⟩ := exec_of_idle_cases (hu.idle hs) h
      rw [hu.1] at hbanks
      exact hbanks fun e => hpresent (e ▸ hi)
    | store u hu off v hs hal hw ht =>
      obtain ⟨hactive, hpresented, -⟩ := storeReg_registers u (regAt off) v
      rw [ht, hactive, hpresented, hu.1]
      exact ⟨rfl, rfl⟩
    | reset u hu hr h => exact absurd hr hreset
  simp [hkept] at hne

/-- Settles O54: of the five kinds of step only ADVANCE's completing step, a store to the register and reset reach
PHASE, and only the last two reach SPEED. -/
theorem phaseAndSpeedChangeOnlyByTheirWriters : Obligations.PhaseAndSpeedChangeOnlyByTheirWriters := by
  intro s t h
  cases step_cases h with
  | stays ht => rw [ht.1]; simp
  | engine u hu h =>
    obtain ⟨hframe, -, hphase⟩ := engineTurn_registers h
    have hspeed : t.speed = s.speed := by rw [hframe, hu.1]
    rw [hu.1] at hphase
    exact ⟨fun hne => .inr (.inl (.inl (by_contra fun hseq => hne (hphase hseq)))), fun hne => absurd hspeed hne⟩
  | command u hu i hs hi h =>
    obtain ⟨hframe, -, hphase⟩ := exec_of_idle_cases (hu.idle hs) h
    have hspeed : t.speed = s.speed := by rw [hframe, hu.1]
    rw [hu.1] at hphase
    exact ⟨fun hne => .inr (.inl (by_contra fun hno => hne (hphase fun e => hno (e ▸ hi)))),
      fun hne => absurd hspeed hne⟩
  | store u hu off v hs hal hw ht =>
    obtain ⟨-, -, -, -, hphase, hspeed⟩ := storeReg_registers u (regAt off) v
    rw [← ht, hu.1] at hphase hspeed
    refine ⟨fun hne => ?_, fun hne => ?_⟩
    · have hr : regAt off = .phase := by_contra fun hr => hne (hphase.trans (if_neg hr))
      rw [if_pos hr] at hphase
      rw [(regAt_eq_phase_iff hal).1 hr] at hw
      exact .inr (.inr ⟨v, hw, hphase⟩)
    · have hr : regAt off = .speed := by_contra fun hr => hne (hspeed.trans (if_neg hr))
      rw [if_pos hr] at hspeed
      rw [(regAt_eq_speed_iff hal).1 hr] at hw
      exact .inr ⟨v, hw, hspeed⟩
  | reset u hu hr h => exact ⟨fun _ => .inl hr, fun _ => .inl hr⟩

theorem step_params {s t : State} (h : step s = .next t) : t.params = s.params := by
  cases step_cases h with
  | stays ht => rw [ht.1]
  | engine u hu h => rw [(engineTurn_registers h).1, hu.1]
  | command u hu i hs hi h => rw [(exec_of_idle_cases (hu.idle hs) h).1, hu.1]
  | store u hu off v hs hal hw ht =>
    obtain ⟨-, -, hparams, -⟩ := storeReg_registers u (regAt off) v
    rw [ht, hparams, hu.1]
  | reset u hu hr ht => rw [ht, State.applyReset_params, hu.1]

/-- Settles O55: the parameters, and with them WROM, are the same after every step. -/
theorem romsAndParametersNeverChange : Obligations.RomsAndParametersNeverChange := by
  intro s t h
  rw [step_params h]
  exact ⟨rfl, fun _ => rfl⟩

/-- Settles O9: between two states in which a command runs lies an engine turn that does not complete it, or a step
that leaves the registers alone. -/
theorem runningCommandOperandsAreConstant : Obligations.RunningCommandOperandsAreConstant := by
  intro s t hb h ht
  have hidle (hs : s.seq = .idle) : False := by simp [State.isBusy_of_idle hs] at hb
  cases step_cases h with
  | stays h =>
    rw [h.1]
    simp [State.SameOperands]
  | engine u hu h =>
    have hub : u.isBusy = true := by rw [hu.1]; exact hb
    obtain ⟨-, hframe⟩ | ⟨hdone, -⟩ := engineTurn_of_busy hub h
    · rw [hframe, hu.1]
      simp [State.SameOperands]
    · simp [ht] at hdone
  | command u hu i hs hi h => exact (hidle hs).elim
  | store u hu off v hs hal hw h => exact (hidle hs).elim
  | reset u hu hr h => simp [h, State.isBusy] at ht

end Sys2Proof.Machine

/-! # The register window read and written, submissions, and refusals

10_state.md section 2, 30_encoding.md section 5, 60_exceptions.md section 1. -/

namespace Sys2Proof.Machine

section Window

variable {s t : State} {r q : Reg} {v : Word} {off : Byte} {e : Event}

/-! ### A register after a write of it (10_state.md R21 to R38) -/

/-- Bits 31:2 with zeros below, as FB0_BASE and FB1_BASE read (R37, R38). -/
theorem extractLsb'_append_zero (v : Word) : v.extractLsb' 2 30 ++ (0 : BitVec 2) = v &&& 0xFFFFFFFC := by
  apply BitVec.eq_of_getLsbD_eq
  intro k hk
  rw [BitVec.getLsbD_append, BitVec.getLsbD_and]
  interval_cases k <;> simp

/-- Bits 1:0 with zeros above, as CTRL reads (R23). -/
theorem ctrl_bits_append (v : Word) :
    (0 : BitVec 30) ++ BitVec.ofBool (v.getLsbD 1) ++ BitVec.ofBool (v.getLsbD 0) = v &&& 0x00000003 := by
  apply BitVec.eq_of_getLsbD_eq
  intro k hk
  rw [BitVec.getLsbD_append, BitVec.getLsbD_append, BitVec.getLsbD_and]
  interval_cases k <;> simp

/-- Bits 23:0 with zeros above, as PT_COLOR reads (R33). -/
theorem setWidth_extractLsb'_color (v : Word) : (v.extractLsb' 0 24).setWidth 32 = v &&& 0x00FFFFFF := by
  apply BitVec.eq_of_getLsbD_eq
  intro k hk
  rw [BitVec.getLsbD_setWidth, BitVec.getLsbD_extractLsb', BitVec.getLsbD_and]
  interval_cases k <;> simp

theorem readReg_storeReg_self (hr : r.guarded = true) (hcmd : r ≠ .cmd) :
    (s.storeReg r v).readReg r = v &&& writableBits r := by
  have hall : v &&& 0xFFFFFFFF = v := BitVec.and_allOnes
  cases r
  case cmd => exact absurd rfl hcmd
  case ctrl => exact ctrl_bits_append v
  case ptColor => exact setWidth_extractLsb'_color v
  case fb0Base | fb1Base => exact extractLsb'_append_zero v
  case status | width | height | lookup | reserved => cases hr
  all_goals exact hall.symm

theorem readReg_storeReg_ne (hr : r.guarded = true) (hcmd : r ≠ .cmd) (hq : q ≠ r) :
    (s.storeReg r v).readReg q = s.readReg q := by
  cases r
  case cmd => exact absurd rfl hcmd
  case status | width | height | lookup | reserved => cases hr
  all_goals
    cases q <;> simp_all [State.storeReg, State.readReg, State.statusWord, State.ctrlWord, State.isBusy, State.fbBase]

theorem storeReg_outside_window (hr : r.guarded = true) (hcmd : r ≠ .cmd) :
    (s.storeReg r v).seq = s.seq ∧ (s.storeReg r v).mem = s.mem ∧ (s.storeReg r v).params = s.params ∧
      (s.storeReg r v).pending = s.pending ∧ (s.storeReg r v).busData = s.busData ∧
      (s.storeReg r v).host = s.host := by
  cases r
  case cmd => exact absurd rfl hcmd
  case status | width | height | lookup | reserved => cases hr
  all_goals exact ⟨rfl, rfl, rfl, rfl, rfl, rfl⟩

/-! ### What a read returns (10_state.md R23, R33, R37, R38) -/

theorem ctrlWord_eq_ofNat (s : State) : s.ctrlWord = BitVec.ofNat 32 (s.trails.toNat + 2 * s.irqEn.toNat) := by
  cases ht : s.trails <;> cases hi : s.irqEn <;> simp [State.ctrlWord, ht, hi]

theorem append_zero_eq_ofNat (b : BitVec 30) : b ++ (0 : BitVec 2) = BitVec.ofNat 32 (4 * b.toNat) := by
  have hb := b.isLt
  apply BitVec.eq_of_toNat_eq
  rw [toNat_append_eq_add, BitVec.toNat_ofNat]
  simp only [BitVec.ofNat_eq_ofNat, BitVec.toNat_ofNat]
  omega

/-! ### Submissions (30_encoding.md section 5) -/

theorem syncWord_of_decode {w : Word} {i : Instr} (hs : s.seq = .idle) (hd : decode w = .ok i) :
    syncWord w s = exec i s := by
  simp [syncWord, State.isBusy_of_idle hs, hd]

theorem step_of_sync_pending {w : Word} {i : Instr} {rest : List Event} (hs : s.seq = .idle)
    (hp : s.pending = .sync w :: rest) (hd : decode w = .ok i) : step s = exec i (s.setPending rest) := by
  rw [step, stepOnce, hp]
  exact syncWord_of_decode hs hd

/-! ### Refusals (10_state.md R40) -/

theorem syncWord_next (w : Word) (s : State) : ∃ t, syncWord w s = .next t := by
  unfold syncWord
  split
  · exact ⟨_, rfl⟩
  · split
    · exact ⟨_, rfl⟩
    · exact exec_next _ s

/-- The register accesses that are not aligned 32-bit ones. -/
def Event.Misaligned (e : Event) : Prop :=
  (∃ off size v, e = .write off size v ∧ (size ≠ .word ∨ off.toNat % 4 ≠ 0)) ∨
    (∃ off size, e = .read off size ∧ (size ≠ .word ∨ off.toNat % 4 ≠ 0)) ∨
    (∃ off v, e = .writeWithEngine off v ∧ off.toNat % 4 ≠ 0)

theorem act_next_or_refused (e : Event) (s : State) :
    (∃ t, act e s = .next t) ∨ (act e s = .refused .registerAccess ∧ e.Misaligned) := by
  cases e with
  | engine => exact .inl (engineTurn_next s)
  | write off size v =>
    by_cases hacc : size = .word ∧ off.toNat % 4 = 0
    · exact .inl ⟨_, if_pos (windowAccepts_iff.2 hacc)⟩
    · exact .inr ⟨act_write_refused hacc, .inl ⟨off, size, v, rfl, not_and_or.1 hacc⟩⟩
  | read off size =>
    by_cases hacc : size = .word ∧ off.toNat % 4 = 0
    · exact .inl ⟨_, if_pos (windowAccepts_iff.2 hacc)⟩
    · exact .inr ⟨act_read_refused hacc, .inr (.inl ⟨off, size, rfl, not_and_or.1 hacc⟩)⟩
  | writeWithEngine off v =>
    simp only [act, windowAccepts_iff, true_and]
    split
    · split
      · exact .inl (engineTurn_next _)
      · exact .inl ⟨_, rfl⟩
    case isFalse hal => exact .inr ⟨rfl, .inr (.inr ⟨off, v, rfl, hal⟩)⟩
  | sync w => exact .inl (syncWord_next w s)
  | wait =>
    simp only [act]
    split
    · exact .inl (engineTurn_next _)
    · exact .inl ⟨_, rfl⟩
  | store a size v | load a size | rst | hostFrame inp => exact .inl ⟨_, rfl⟩

end Window

/-! ### The statements -/

/-- Settles O6: the access of each offset is that of its register. -/
theorem registerReadAfterWrite : Obligations.RegisterReadAfterWrite := by
  refine ⟨fun s v hb => ?_, fun s => ?_, fun s r v hb hr hcmd => ?_⟩
  · have hstore {off : Byte} (hal : off.toNat % 4 = 0) :
        act (.write off .word v) s = .next (s.storeReg (regAt off) v) := by
      rw [act_write_of_aligned hal, writeReg_of_idle hb]
    exact ⟨act_write_of_aligned rfl, act_write_of_aligned rfl, hstore rfl, hstore rfl, hstore rfl, hstore rfl,
      hstore rfl, hstore rfl, hstore rfl, hstore rfl, hstore rfl, hstore rfl, hstore rfl, hstore rfl, hstore rfl⟩
  · have hctrl : act (.read 0x08 .word) s = .next { s with busData := s.ctrlWord } := act_read_of_aligned rfl
    have hfb0 : act (.read 0x40 .word) s = .next { s with busData := s.fb0 ++ (0 : BitVec 2) } :=
      act_read_of_aligned rfl
    have hfb1 : act (.read 0x44 .word) s = .next { s with busData := s.fb1 ++ (0 : BitVec 2) } :=
      act_read_of_aligned rfl
    have hcolor : act (.read 0x30 .word) s = .next { s with busData := s.ptColor.setWidth 32 } :=
      act_read_of_aligned rfl
    rw [ctrlWord_eq_ofNat] at hctrl
    rw [← BitVec.ofNat_toNat] at hcolor
    rw [append_zero_eq_ofNat] at hfb0 hfb1
    exact ⟨act_read_of_aligned rfl, hctrl, act_read_of_aligned rfl, act_read_of_aligned rfl, act_read_of_aligned rfl,
      act_read_of_aligned rfl, act_read_of_aligned rfl, act_read_of_aligned rfl, act_read_of_aligned rfl, hcolor,
      act_read_of_aligned rfl, act_read_of_aligned rfl, hfb0, hfb1⟩
  · rw [writeReg_of_idle hb]
    exact ⟨readReg_storeReg_self hr hcmd, fun q => readReg_storeReg_ne hr hcmd, storeReg_outside_window hr hcmd⟩

/-- Settles O47: the submission is next, or is put in front of the list by `withFetchWord`. -/
theorem stepRunsTheDecodedCommand : Obligations.StepRunsTheDecodedCommand := by
  refine ⟨fun s w i rest hs hp hd => step_of_sync_pending hs hp hd, fun s w i hd => ?_⟩
  have hword : BitVec.ofNat 32 (w.toNat % 2 ^ 32) = w := by
    rw [Nat.mod_eq_of_lt w.isLt, BitVec.ofNat_toNat, BitVec.setWidth_eq]
  rw [State.withFetchWord, hword]
  exact step_of_sync_pending (s := s.placeCommand w) rfl rfl hd

/-- Settles O56: an engine turn and every action but a misaligned register access answer a next state. -/
theorem blockNeverTraps : Obligations.BlockNeverTraps := by
  intro s
  unfold step stepOnce
  split
  case h_1 => exact .inl (engineTurn_next s)
  case h_2 e rest hp =>
    obtain hnext | ⟨hrefused, he⟩ := act_next_or_refused e (s.setPending rest)
    · exact .inl hnext
    · exact .inr ⟨hrefused, e, rest, hp, he⟩

end Sys2Proof.Machine

/-! # Command words both ways

30_encoding.md section 3. A word whose fields are as required is the encoding of the command assembled from it
(`encode_assemble`), and the word of a well-formed command holds its operand (`assemble_encode`). -/

namespace Sys2Proof.Machine

section Encoding

variable {w : Word} {i : Instr}

theorem decode_eq_ok_iff : decode w = .ok i ↔ opField w < 10 ∧ fieldsLegal w ∧ i = assemble (opField w) w := by
  by_cases hop : opField w < 10
  · by_cases hf : fieldsLegal w
    · simp [decode_of_fieldsLegal hop hf, hop, hf, eq_comm]
    · simp [decode_of_not_fieldsLegal hop hf, hf]
  · simp [decode_of_illegalOpcode (not_lt.1 hop), hop]

/-! ### From the word -/

theorem bankField_eq (w : Word) : bankField w = w.toNat / 256 % 2 := by
  simp [bankField, Nat.shiftRight_eq_div_pow]

theorem wromIndexField_eq (w : Word) : wromIndexField w = w.toNat / 65536 % 16384 := by
  simp [wromIndexField, Nat.shiftRight_eq_div_pow]

theorem gromIndexField_eq (w : Word) : gromIndexField w = w.toNat / 65536 % 65536 := by
  simp [gromIndexField, Nat.shiftRight_eq_div_pow]

/-- Every field of the word is an operand, the opcode or zero (30_encoding.md R81 to R84). -/
theorem encode_assemble (hop : opField w < 10) (hf : fieldsLegal w) :
    (assemble (opField w) w).wf = true ∧ encode (assemble (opField w) w) = w := by
  rw [fieldsLegal_iff_toNat] at hf
  have hw := w.isLt
  have hlow := opField_eq_mod w
  have toNat_ofNat_iff (n : Nat) : BitVec.ofNat 32 n = w ↔ n % 2 ^ 32 = w.toNat := by
    rw [← BitVec.toNat_inj, BitVec.toNat_ofNat]
  generalize opField w = op at *
  interval_cases op <;>
    simp only [assemble, Instr.wf, encode, opcode, toNat_ofNat_iff, bankField_eq, wromIndexField_eq,
      gromIndexField_eq, decide_eq_true_eq, true_and] <;>
    omega

/-! ### From the command -/

theorem encoding_statement (i : Instr) : Sys2Proof.Laws.Encoding.Statement i := by
  cases i with
  | nop => exact Laws.Encoding.nop
  | clear b => exact Laws.Encoding.clear b
  | render => exact Laws.Encoding.render
  | present => exact Laws.Encoding.present
  | advance => exact Laws.Encoding.advance
  | draw => exact Laws.Encoding.draw
  | plot => exact Laws.Encoding.plot
  | wlookup idx => exact Laws.Encoding.wlookup idx
  | glookup gidx => exact Laws.Encoding.glookup gidx
  | cstep => exact Laws.Encoding.cstep

theorem assemble_encode (h : i.wf = true) : assemble (opcode i) (encode i) = i := by
  cases i with
  | clear b =>
    have hb : b < 2 := by simpa [Instr.wf] using h
    simp only [assemble, opcode, encode, bankField_eq, BitVec.toNat_ofNat, Instr.clear.injEq]
    omega
  | wlookup idx =>
    have hidx : idx < 16384 := by simpa [Instr.wf] using h
    simp only [assemble, opcode, encode, wromIndexField_eq, BitVec.toNat_ofNat, Instr.wlookup.injEq]
    omega
  | glookup gidx =>
    have hgidx : gidx < 65536 := by simpa [Instr.wf] using h
    simp only [assemble, opcode, encode, gromIndexField_eq, BitVec.toNat_ofNat, Instr.glookup.injEq]
    omega
  | nop | render | present | advance | draw | plot | cstep => rfl

end Encoding

/-! ### The statements -/

/-- Settles O1: the word lies in its command's row of the opcode map and holds its operand. -/
theorem decodeOfEncode : Obligations.DecodeOfEncode := by
  intro i hi
  obtain ⟨hop, row, hrow, hmask⟩ := encoding_statement i hi
  rw [decode_of_row hop hrow, if_pos hmask, assemble_encode hi]

/-- Settles O2: a decoded word is the encoding of what is assembled from it. -/
theorem encodeOfDecode : Obligations.EncodeOfDecode := by
  intro w i hd
  obtain ⟨hop, hf, rfl⟩ := decode_eq_ok_iff.1 hd
  exact encode_assemble hop hf

/-- Settles O3: the decoder evaluated on the 25 words. -/
theorem specWordsDecode : Obligations.SpecWordsDecode := by
  unfold Obligations.SpecWordsDecode
  decide

end Sys2Proof.Machine

/-! # Bytes of words and host accesses

20_memory.md R61 and R64, with the host's access widths of log entry 14. -/

namespace Sys2Proof.Machine

section HostAccess

variable (m : Memory) (a v : Word)

theorem Memory.readByte_writeWord_offset {i : Nat} (hi : i < 4) :
    (m.writeWord a v).readByte (a + BitVec.ofNat 32 i) = wordByte v i := by
  rw [readByte_writeWord, toNat_add_ofNat_sub a (by omega), if_pos hi]

theorem Memory.readByte_writeWord_first : (m.writeWord a v).readByte a = wordByte v 0 := by
  simpa using m.readByte_writeWord_offset a v (i := 0) (by decide)

/-- The low half of a word as its two bytes, zero-extended. -/
theorem setWidth_lowBytes_append :
    (v.extractLsb' 8 8 ++ v.extractLsb' 0 8).setWidth 32 = v &&& 0xFFFF := by
  have hlow : v.extractLsb' 8 8 ++ v.extractLsb' 0 8 = v.extractLsb' 0 16 :=
    BitVec.extractLsb'_append_extractLsb'_eq_extractLsb' rfl
  rw [hlow]
  apply BitVec.eq_of_getLsbD_eq
  intro k hk
  rw [BitVec.getLsbD_setWidth, BitVec.getLsbD_extractLsb', BitVec.getLsbD_and]
  interval_cases k <;> simp

theorem setWidth_lowByte : (v.extractLsb' 0 8).setWidth 32 = v &&& 0xFF := by
  simpa using (and_byteMask v 0).symm

/-! ### A store and the load after it, by width (log entry 14) -/

theorem Memory.load_store_byte : (m.store a .byte v).load a .byte = v &&& 0xFF := by
  simp [Memory.load, Memory.store, setWidth_lowByte]

theorem Memory.readByte_store_half (b : Word) : (m.store a .half v).readByte b =
    if b = a + 1 then v.extractLsb' 0 8 else if b = a then v.extractLsb' 8 8 else m.readByte b := by
  simp only [Memory.store, Memory.readByte_writeByte]

theorem Memory.readByte_store_half_first : (m.store a .half v).readByte a = v.extractLsb' 8 8 := by
  rw [readByte_store_half, if_neg (by simp), if_pos rfl]

theorem Memory.readByte_store_half_second : (m.store a .half v).readByte (a + 1) = v.extractLsb' 0 8 := by
  rw [readByte_store_half, if_pos rfl]

theorem Memory.load_store_half : (m.store a .half v).load a .half = v &&& 0xFFFF := by
  simp only [Memory.load, readByte_store_half_first, readByte_store_half_second, setWidth_lowBytes_append]

end HostAccess

/-! ### The statements -/

/-- Settles O17: the byte at offset i of a written word, and the bytes outside it. -/
theorem wordsAreBigEndian : Obligations.WordsAreBigEndian := fun m a v =>
  ⟨m.readByte_writeWord_first a v, m.readByte_writeWord_offset a v (i := 1) (by decide),
    m.readByte_writeWord_offset a v (i := 2) (by decide), m.readByte_writeWord_offset a v (i := 3) (by decide),
    m.readWord_writeWord_self a v, fun _ => m.readByte_writeWord_outside v⟩

/-- Settles O18: by the width of the access. -/
theorem hostStoreThenLoad : Obligations.HostStoreThenLoad := by
  intro s a v size
  refine ⟨_, _, rfl, rfl, rfl, rfl, ?_⟩
  cases size with
  | byte =>
    exact ⟨s.mem.load_store_byte a v, s.mem.readByte_writeByte_self a _, fun b => s.mem.readByte_writeByte_ne _⟩
  | half =>
    refine ⟨s.mem.load_store_half a v, s.mem.readByte_store_half_first a v, s.mem.readByte_store_half_second a v,
      fun b h0 h1 => ?_⟩
    exact (s.mem.readByte_store_half a v b).trans (by rw [if_neg h1, if_neg h0])
  | word =>
    obtain ⟨h0, h1, h2, h3, hword, hout⟩ := wordsAreBigEndian s.mem a v
    exact ⟨hword, h0, h1, h2, h3, hout⟩

end Sys2Proof.Machine

/-! # The ROMs over the rationals, and the curve step

00_scope.md R5, 40_waveform_rom.md section 3, 41_gradient_rom.md sections 2 to 4, 42_curve_engine.md sections 1 and 4.
The samples as integers bound the halves of a WROM word and so the curve step; the step sees only residues modulo
16384, and so does a frame; the channels of GROM are quotients, which are the floors of the document's formulas. -/

namespace Sys2Proof.Machine

section Waveform

variable (quarter : List (BitVec 15)) {i r : Nat}

/-! ### Samples as integers (40_waveform_rom.md R100, R101) -/

theorem toInt_quarterSample (r : Nat) : (quarterSample quarter r).toInt = (quarter.getD r 0).toNat := by
  have hlt := (quarter.getD r 0).isLt
  have hnat : (quarterSample quarter r).toNat = (quarter.getD r 0).toNat := BitVec.toNat_setWidth_of_le (by decide)
  rw [BitVec.toInt_eq_toNat_of_lt (by omega), hnat]

/-- A 15-bit sample has a negative of 16 bits. -/
theorem toInt_neg_quarterSample (r : Nat) : (-quarterSample quarter r).toInt = -(quarterSample quarter r).toInt := by
  have hlt := (quarter.getD r 0).isLt
  have hint := toInt_quarterSample quarter r
  refine BitVec.toInt_neg_of_ne_intMin fun hmin => ?_
  rw [hmin, BitVec.toInt_intMin] at hint
  omega

theorem waveSample_eq_quarterSample (i : Nat) :
    ∃ r, waveSample quarter i = quarterSample quarter r ∨ waveSample quarter i = -quarterSample quarter r := by
  unfold waveSample
  simp only
  split
  · exact ⟨_, .inl rfl⟩
  · exact ⟨_, .inl rfl⟩
  · exact ⟨_, .inr (BitVec.zero_sub _)⟩
  · exact ⟨_, .inr (BitVec.zero_sub _)⟩

theorem waveSample_range (i : Nat) :
    -32767 ≤ (waveSample quarter i).toInt ∧ (waveSample quarter i).toInt ≤ 32767 := by
  obtain ⟨r, hr⟩ := waveSample_eq_quarterSample quarter i
  have hlt := (quarter.getD r 0).isLt
  obtain hr | hr := hr
  · rw [hr, toInt_quarterSample]
    omega
  · rw [hr, toInt_neg_quarterSample, toInt_quarterSample]
    omega

/-- The second half period is the first one negated (R101). -/
theorem waveSample_half_period (hi : i < 8192) : waveSample quarter (8192 + i) = -waveSample quarter i := by
  obtain h0 | h1 := Nat.lt_or_ge i 4096
  · rw [waveSample_negated quarter h0, waveSample_rising quarter h0]
  · obtain ⟨r, rfl⟩ := Nat.exists_eq_add_of_le h1
    have hr : r < 4096 := by omega
    rw [← Nat.add_assoc, waveSample_mirrored_negated quarter hr, waveSample_mirrored quarter hr]

theorem toInt_waveSample_neg (hi : i < 8192) :
    (waveSample quarter (8192 + i)).toInt = -(waveSample quarter i).toInt := by
  rw [waveSample_half_period quarter hi]
  obtain h0 | h1 := Nat.lt_or_ge i 4096
  · rw [waveSample_rising quarter h0, toInt_neg_quarterSample]
  · obtain ⟨r, rfl⟩ := Nat.exists_eq_add_of_le h1
    rw [waveSample_mirrored quarter (by omega), toInt_neg_quarterSample]

/-! ### The halves of a WROM word (R103, R104) -/

theorem highHalf_wromWord (i : Nat) :
    highHalf (wromWord quarter i) = (waveSample quarter (i % waveSize)).signExtend 32 := by
  rw [highHalf, wromWord, BitVec.extractLsb'_append_eq_left]

theorem lowHalf_wromWord (i : Nat) :
    lowHalf (wromWord quarter i) = (waveSample quarter ((i + 4096) % waveSize)).signExtend 32 := by
  rw [lowHalf, wromWord, BitVec.extractLsb'_append_eq_right]

theorem toInt_highHalf_wromWord (i : Nat) :
    (highHalf (wromWord quarter i)).toInt = (waveSample quarter (i % waveSize)).toInt := by
  rw [highHalf_wromWord, BitVec.toInt_signExtend_of_le (by decide)]

theorem toInt_lowHalf_wromWord (i : Nat) :
    (lowHalf (wromWord quarter i)).toInt = (waveSample quarter ((i + 4096) % waveSize)).toInt := by
  rw [lowHalf_wromWord, BitVec.toInt_signExtend_of_le (by decide)]

theorem highHalf_wromWord_range (i : Nat) :
    -32767 ≤ (highHalf (wromWord quarter i)).toInt ∧ (highHalf (wromWord quarter i)).toInt ≤ 32767 := by
  rw [toInt_highHalf_wromWord]
  exact waveSample_range quarter _

theorem lowHalf_wromWord_range (i : Nat) :
    -32767 ≤ (lowHalf (wromWord quarter i)).toInt ∧ (lowHalf (wromWord quarter i)).toInt ≤ 32767 := by
  rw [toInt_lowHalf_wromWord]
  exact waveSample_range quarter _

theorem toInt_highHalf_half_period (hi : i < 16384) :
    (highHalf (wromWord quarter i)).toInt = -(highHalf (wromWord quarter ((i + 8192) % 16384))).toInt := by
  rw [toInt_highHalf_wromWord, toInt_highHalf_wromWord, Nat.mod_mod, Nat.mod_eq_of_lt hi]
  obtain h0 | h1 := Nat.lt_or_ge i 8192
  · rw [Nat.mod_eq_of_lt (by omega), Nat.add_comm, toInt_waveSample_neg quarter h0, Int.neg_neg]
  · obtain ⟨r, rfl⟩ := Nat.exists_eq_add_of_le h1
    have hr : (8192 + r + 8192) % 16384 = r := by omega
    rw [hr, toInt_waveSample_neg quarter (by omega)]

theorem highHalf_quarter_mirror (hr : r < 4096) :
    highHalf (wromWord quarter (4096 + r)) = highHalf (wromWord quarter (4095 - r)) := by
  have h1 : (4096 + r) % 16384 = 4096 + r := Nat.mod_eq_of_lt (by omega)
  have h0 : (4095 - r) % 16384 = 4095 - r := Nat.mod_eq_of_lt (by omega)
  rw [highHalf_wromWord, highHalf_wromWord, h1, h0, waveSample_mirrored quarter hr,
    waveSample_rising quarter (by omega)]

/-! ### The curve step (42_curve_engine.md R141) -/

/-- Two values of 17 bits with their sign have an exact sum. -/
theorem toInt_add_of_bounded {x y : Word} (hx : -32767 ≤ x.toInt ∧ x.toInt ≤ 32767)
    (hy : -32767 ≤ y.toInt ∧ y.toInt ≤ 32767) :
    (x + y).toInt = x.toInt + y.toInt ∧ -65534 ≤ (x + y).toInt ∧ (x + y).toInt ≤ 65534 := by
  have hsum : (x + y).toInt = x.toInt + y.toInt := by
    rw [BitVec.toInt_add]
    exact Int.bmod_eq_of_le (by omega) (by omega)
  omega

theorem wromIndex_add_congr {p q x u : Word} (hp : p.toNat % 16384 = q.toNat % 16384)
    (hx : x.toNat % 16384 = u.toNat % 16384) : wromIndex (p + x) = wromIndex (q + u) := by
  rw [wromIndex_eq_mod, wromIndex_eq_mod, BitVec.toNat_add, BitVec.toNat_add]
  omega

theorem curveStep_congr {p1 p2 x y q1 q2 u v : Word} (h1 : p1.toNat % 16384 = q1.toNat % 16384)
    (h2 : p2.toNat % 16384 = q2.toNat % 16384) (hx : x.toNat % 16384 = u.toNat % 16384)
    (hy : y.toNat % 16384 = v.toNat % 16384) : curveStep quarter p1 p2 x y = curveStep quarter q1 q2 u v := by
  rw [curveStep, curveStep, wromIndex_add_congr h1 hx, wromIndex_add_congr h2 hy]

theorem slotPoints_congr {p1 p2 q1 q2 : Word} (h1 : p1.toNat % 16384 = q1.toNat % 16384)
    (h2 : p2.toNat % 16384 = q2.toNat % 16384) (n g : Nat) (x y : Word) :
    slotPoints quarter p1 p2 n g x y = slotPoints quarter q1 q2 n g x y := by
  induction n generalizing g x y with
  | zero => rfl
  | succ n ih =>
    have hstep : curveStep quarter p1 p2 x y = curveStep quarter q1 q2 x y := curveStep_congr quarter h1 h2 rfl rfl
    rw [slotPoints, slotPoints, hstep, ih]

theorem framePoints_congr {t u : Word} (h : t.toNat % 16384 = u.toNat % 16384) :
    framePoints quarter t = framePoints quarter u := by
  have hadd (c : Word) : (t + c).toNat % 16384 = (u + c).toNat % 16384 := by
    rw [BitVec.toNat_add, BitVec.toNat_add]
    omega
  have hslot : frameSlot quarter t = frameSlot quarter u :=
    funext fun k => slotPoints_congr quarter (hadd _) (hadd _) _ _ 0 0
  rw [framePoints_eq_flatMap, framePoints_eq_flatMap, hslot]

theorem and_mask_eq_iff (t u : Word) : t &&& 0x3FFF = u &&& 0x3FFF ↔ t.toNat % 16384 = u.toNat % 16384 := by
  rw [← wromIndex_eq_mod, ← wromIndex_eq_mod, wromIndex, wromIndex, BitVec.toNat_inj]

end Waveform

section Gradient

variable {j : Nat}

/-! ### Channel G (41_gradient_rom.md R122) -/

/-- R122 with its square written out: 256 minus a quotient that rounds up. -/
theorem gradG_eq_sub (j : Nat) : gradG j = 256 - ((1024 - j) ^ 2 + 4095) / 4096 := by
  have hsq : (1024 - j) ^ 2 ≤ 1024 ^ 2 := Nat.pow_le_pow_left (Nat.sub_le 1024 j) 2
  unfold gradG
  omega

theorem gradG_mono {i : Nat} (h : i ≤ j) : gradG i ≤ gradG j := by
  have hsq : (1024 - j) ^ 2 ≤ (1024 - i) ^ 2 := Nat.pow_le_pow_left (by omega) 2
  rw [gradG_eq_sub, gradG_eq_sub]
  omega

/-- The iteration at which G is 256 - n: the last whole square up to 4096 n. -/
theorem gradG_sqrt {n : Nat} (h0 : 0 < n) (hn : n ≤ 256) :
    1024 - Nat.sqrt (4096 * n) < 1024 ∧ gradG (1024 - Nat.sqrt (4096 * n)) = 256 - n := by
  have hle : Nat.sqrt (4096 * n) ^ 2 ≤ 4096 * n := Nat.sqrt_le' _
  have hlt : 4096 * n < (Nat.sqrt (4096 * n) + 1) ^ 2 := Nat.lt_succ_sqrt' _
  generalize Nat.sqrt (4096 * n) = x at hle hlt
  have hx : x ≤ 1024 := by nlinarith
  have hpos : 0 < x := Nat.pos_of_ne_zero fun hx0 => by
    subst hx0
    omega
  have hsub : 1024 - (1024 - x) = x := by omega
  have hexpand : (x + 1) ^ 2 = x ^ 2 + 2 * x + 1 := by ring
  rw [gradG_eq_sub, hsub]
  omega

end Gradient

/-! ### The statements -/

/-- Settles O19: the samples by quadrants, a half period and a quarter period on. -/
theorem waveformRomSymmetries : Obligations.WaveformRomSymmetries := by
  refine fun quarter => ⟨fun i hi => ?_, fun r hr => highHalf_quarter_mirror quarter hr⟩
  have hlow : lowHalf (wromWord quarter i) = highHalf (wromWord quarter ((i + 4096) % 16384)) := by
    rw [lowHalf_wromWord, highHalf_wromWord, Nat.mod_mod]
  obtain ⟨hhigh, hhigh'⟩ := highHalf_wromWord_range quarter i
  exact ⟨toInt_highHalf_half_period quarter hi, hlow, hhigh, hhigh', lowHalf_wromWord_range quarter i⟩

/-- Settles O26: each coordinate is a sum of two halves of WROM words. -/
theorem curveStepIsExactAndBounded : Obligations.CurveStepIsExactAndBounded := by
  intro quarter p1 p2 x y
  obtain ⟨hx, hxlo, hxhi⟩ :=
    toInt_add_of_bounded (lowHalf_wromWord_range quarter (wromIndex (p1 + x)))
      (lowHalf_wromWord_range quarter (wromIndex (p2 + y)))
  obtain ⟨hy, hylo, hyhi⟩ :=
    toInt_add_of_bounded (highHalf_wromWord_range quarter (wromIndex (p1 + x)))
      (highHalf_wromWord_range quarter (wromIndex (p2 + y)))
  exact ⟨hx, hy, hxlo, hxhi, hylo, hyhi⟩

/-- Settles O27: the two indices are residues of sums. -/
theorem curveStepUsesOnlyLowBits : Obligations.CurveStepUsesOnlyLowBits :=
  fun quarter _ _ _ _ _ _ _ _ h1 h2 hx hy => curveStep_congr quarter h1 h2 hx hy

/-- Settles O29: slot by slot and point by point the frame is made of curve steps. -/
theorem frameDependsOnPhaseModN : Obligations.FrameDependsOnPhaseModN :=
  fun quarter t u h => framePoints_congr quarter ((and_mask_eq_iff t u).1 h)

/-- Settles O16: both quotients lie between the increment and its successor. -/
theorem phaseIncrementsAreTruncations : Obligations.PhaseIncrementsAreTruncations := by
  have hlo := Real.pi_gt_d4
  have hhi := Real.pi_lt_d4
  have h1 : ang1inc.toNat = 278 := rfl
  have h2 : ang2inc.toNat = 10430 := rfl
  refine ⟨?_, ?_⟩
  · rw [h1, eq_comm, Nat.floor_eq_iff (by norm_num)]
    norm_num
  · rw [h2, eq_comm, Nat.floor_eq_iff (by positivity), le_div_iff₀ (by positivity), div_lt_iff₀ (by positivity)]
    constructor
    · push_cast
      linarith
    · push_cast
      linarith

/-- Settles O22: R122's quotient as a floor and as a ceiling. -/
theorem greenMatchesTheFormula : Obligations.GreenMatchesTheFormula := by
  intro j hj
  have hgreen := natCast_gradG hj.le
  refine ⟨?_, ?_, gradG_le hj⟩
  · have hformula : (256 * (1 - (1 - (j : ℚ) / 1024) ^ 2)) =
        ((268435456 - 256 * (1024 - (j : ℤ)) ^ 2 : ℤ) : ℚ) / (1048576 : ℕ) := by
      push_cast
      ring
    rw [hgreen, hformula, Rat.floor_intCast_div_natCast]
    rfl
  · have hformula : (1024 - (j : ℚ)) ^ 2 / 4096 = (((1024 - (j : ℤ)) ^ 2 : ℤ) : ℚ) / (4096 : ℕ) := by
      push_cast
      rfl
    rw [hgreen, hformula, Rat.ceil_intCast_div_natCast]
    generalize (1024 - (j : ℤ)) ^ 2 = q
    omega

/-- A conversion formula in thousandths (41_gradient_rom.md R124), with its constant outside the quotient. -/
theorem floor_thousandths (n c : ℤ) {x : ℚ} (hx : x = n / 1000 + c) : ⌊x⌋ = c + n / 1000 := by
  have hquot : ⌊(n : ℚ) / 1000⌋ = n / 1000 := by exact_mod_cast Rat.floor_intCast_div_natCast n 1000
  rw [hx, Int.floor_add_intCast, hquot, add_comm]

/-- Settles O23: a quotient by 1000 is the floor of the decimal formula. -/
theorem lumaAndChromaMatchTheFormulas : Obligations.LumaAndChromaMatchTheFormulas := by
  intro r g b
  refine ⟨(floor_thousandths _ 16 ?_).symm, (floor_thousandths _ 128 ?_).symm, (floor_thousandths _ 128 ?_).symm⟩
  all_goals
    push_cast
    ring

/-- The bytes of a packed colour are its channels (R125). -/
theorem packColor_bytes {y u v : ℤ} (hy : 0 ≤ y ∧ y < 256) (hu : 0 ≤ u ∧ u < 256) (hv : 0 ≤ v ∧ v < 256) :
    ((colorY (packColor y u v)).toNat : ℤ) = y ∧ ((colorU (packColor y u v)).toNat : ℤ) = u ∧
      ((colorV (packColor y u v)).toNat : ℤ) = v := by
  have hbyte {z : ℤ} (hz : 0 ≤ z ∧ z < 256) : ((BitVec.ofInt 8 z).toNat : ℤ) = z := by
    rw [BitVec.toNat_ofInt]
    omega
  have hY := hbyte hy
  have hU := hbyte hu
  have hV := hbyte hv
  simp only [colorY, colorU, colorV, packColor, BitVec.extractLsb'_toNat, Nat.shiftRight_eq_div_pow,
    toNat_append_eq_add]
  omega

/-- Settles O24: with B written out each channel is bounded by R in 0..252 and G in 0..255. -/
theorem gradientEntriesHoldTheirChannels : Obligations.GradientEntriesHoldTheirChannels := by
  intro k j hk hj
  have hentry : gromEntry (k * 1024 + j) = packColor (gradY (4 * k) (gradG j) (gradB (4 * k) (gradG j)))
      (gradU (4 * k) (gradG j) (gradB (4 * k) (gradG j))) (gradV (4 * k) (gradG j) (gradB (4 * k) (gradG j))) := by
    have hslot : (k * 1024 + j) / 1024 % 64 = k := by omega
    have hiter : (k * 1024 + j) % 1024 = j := by omega
    simp only [gromEntry, hslot, hiter, gradR_eq]
  rw [hentry]
  have hgreen := gradG_le hj
  generalize gradG j = g at *
  have hB : 2 ≤ gradB (4 * k) g ∧ gradB (4 * k) g ≤ 256 := by
    simp only [gradB]
    omega
  have hY : 41 ≤ gradY (4 * k) g (gradB (4 * k) g) ∧ gradY (4 * k) g (gradB (4 * k) g) ≤ 209 := by
    simp only [gradY, gradB]
    omega
  have hU : 17 ≤ gradU (4 * k) g (gradB (4 * k) g) ∧ gradU (4 * k) g (gradB (4 * k) g) ≤ 240 := by
    simp only [gradU, gradB]
    omega
  have hV : 25 ≤ gradV (4 * k) g (gradB (4 * k) g) ∧ gradV (4 * k) g (gradB (4 * k) g) ≤ 229 := by
    simp only [gradV, gradB]
    omega
  exact ⟨hB.1, hB.2, hY.1, hY.2, hU.1, hU.2, hV.1, hV.2, packColor_bytes (by omega) (by omega) (by omega)⟩

/-- Settles O25: R122's quotient falls with the distance from 1024, and each value is reached at a square root; the
selected values and entries are evaluated. -/
theorem gradientRomProperties : Obligations.GradientRomProperties := by
  refine ⟨rfl, rfl, fun j => gradG_le, fun i j h _ => gradG_mono h, fun v hv => ?_, by decide, by decide⟩
  obtain ⟨hlt, hG⟩ := gradG_sqrt (n := 256 - v) (by omega) (by omega)
  exact ⟨_, hlt, by rw [hG]; omega⟩

end Sys2Proof.Machine

/-! # The words of a bank

20_memory.md R61, R65 and R66, 43_compositor.md R163. Every plotted or cleared word is word `c` of its bank for some `c`
below `wordCount` (`plotTarget_some`), so no command reaches a byte outside its bank, and what RENDER leaves in the
bank is a function of what it reads. -/

namespace Sys2Proof.Machine

section BankWords

variable {s s' : State} {bank bank' : Bank} {a addr x y px py : Word} {c d : Nat} {m m' : Memory}

/-! ### Where the words of a bank lie -/

theorem toNat_bankWordAddr_add_sub {i : Nat} (hc : 4 * c + i < 2 ^ 32) :
    (s.bankWordAddr bank c + BitVec.ofNat 32 i - s.fbBase bank).toNat = 4 * c + i := by
  rw [State.bankWordAddr, add_assoc, ← BitVec.ofNat_add, toNat_add_ofNat_sub _ hc]

theorem toNat_bankWordAddr_sub (hc : 4 * c < 2 ^ 32) :
    (s.bankWordAddr bank c - s.fbBase bank).toNat = 4 * c := by
  simpa using toNat_bankWordAddr_add_sub (s := s) (bank := bank) (i := 0) hc

theorem toNat_fbBase_mod (s : State) (bank : Bank) : (s.fbBase bank).toNat % 4 = 0 := by
  unfold State.fbBase
  split
  all_goals
    rw [toNat_append_eq_add]
    simp

theorem isBankWord_bankWordAddr (ha : s.params.Admissible) (hc : c < wordCount s.params) :
    s.isBankWord bank (s.bankWordAddr bank c) = true := by
  have hcount := four_mul_wordCount_le ha
  have hoff := toNat_bankWordAddr_sub (s := s) (bank := bank) (c := c) (by omega)
  rw [State.isBankWord, Bool.and_eq_true, decide_eq_true_iff, inBank_iff ha, hoff]
  omega

theorem inBank_of_mem_word (ha : s.params.Admissible) (hc : c < wordCount s.params)
    (h : (a - s.bankWordAddr bank c).toNat < 4) : s.inBank bank a = true := by
  have hcount := four_mul_wordCount_le ha
  obtain ⟨hword, -⟩ := toNat_sub_bankWordAddr (s := s) (bank := bank) (c := c) (by omega) a
  rw [inBank_iff ha]
  have hoff := hword.1 h
  omega

/-! ### Plotted words -/

theorem toNat_of_inBounds (h : s.inBounds px py = true) :
    px.toNat < s.params.width ∧ py.toNat < s.params.height := by
  obtain ⟨hx0, hx, hy0, hy⟩ := (inBounds_iff s px py).1 h
  have hlx := px.isLt
  have hly := py.isLt
  rw [BitVec.toInt_eq_toNat_cond] at hx0 hx hy0 hy
  split at hx <;> split at hy <;> omega

theorem pixelWord_lt (ha : s.params.Admissible) {px py : Nat} (hx : px < s.params.width) (hy : py < s.params.height) :
    py * (s.params.width / 2) + px / 2 < wordCount s.params := by
  have heven : s.params.width % 2 = 0 := ha.1
  have hhalf : px / 2 < s.params.width / 2 := by omega
  calc py * (s.params.width / 2) + px / 2 < (py + 1) * (s.params.width / 2) := by rw [Nat.succ_mul]; omega
    _ ≤ s.params.height * (s.params.width / 2) := Nat.mul_le_mul_right _ hy
    _ = wordCount s.params := Nat.mul_comm _ _

/-- A plot's word is a word of the bank (R65, R163). -/
theorem plotTarget_some (ha : s.params.Admissible) (h : s.plotTarget bank x y = some (addr, px)) :
    ∃ c < wordCount s.params, addr = s.bankWordAddr bank c := by
  rw [plotTarget_eq_ite] at h
  split at h
  case isFalse => cases h
  case isTrue hin =>
    cases h
    obtain ⟨hx, hy⟩ := toNat_of_inBounds hin
    exact ⟨_, pixelWord_lt ha hx hy, rfl⟩

theorem plotPoint_of_plotTarget_none {pt : Point} (h : s.plotTarget bank pt.x pt.y = none) :
    s.plotPoint bank m pt = m := by
  rw [State.plotPoint, h]

theorem plotPoint_of_plotTarget_some {pt : Point} (h : s.plotTarget bank pt.x pt.y = some (addr, px)) :
    s.plotPoint bank m pt = m.writeWord addr (pack (m.readWord addr) px pt.color) := by
  rw [State.plotPoint, h]

/-! ### Bytes outside the bank -/

theorem readByte_plotPoint_outside (ha : s.params.Admissible) (hout : s.inBank bank a = false) (m : Memory)
    (pt : Point) : (s.plotPoint bank m pt).readByte a = m.readByte a := by
  cases ht : s.plotTarget bank pt.x pt.y with
  | none => rw [plotPoint_of_plotTarget_none ht]
  | some target =>
    obtain ⟨addr, px⟩ := target
    obtain ⟨c, hc, rfl⟩ := plotTarget_some ha ht
    rw [plotPoint_of_plotTarget_some ht, Memory.readByte_writeWord, if_neg]
    intro hword
    rw [inBank_of_mem_word ha hc hword] at hout
    cases hout

theorem readByte_renderBank_outside (ha : s.params.Admissible) (hout : s.inBank bank a = false) (m : Memory) :
    (s.renderBank bank m).readByte a = m.readByte a := by
  rw [State.renderBank]
  generalize framePoints s.params.quarter s.phase = points
  induction points generalizing m with
  | nil => rfl
  | cons pt points ih => rw [List.foldl_cons, ih, readByte_plotPoint_outside ha hout]

theorem readByte_clearBank_outside (ha : s.params.Admissible) (hout : s.inBank bank a = false) (m : Memory) :
    (s.clearBank bank m).readByte a = m.readByte a := by
  rw [readByte_clearBank ha, hout, if_neg Bool.false_ne_true]

theorem readByte_drawBank_outside (ha : s.params.Admissible) (hout : s.inBank bank a = false) (m : Memory) :
    (s.drawBank bank m).readByte a = m.readByte a := by
  unfold State.drawBank
  split
  · exact readByte_renderBank_outside ha hout m
  · rw [readByte_renderBank_outside ha hout, readByte_clearBank_outside ha hout]

/-! ### Two memories that agree on a bank (42_curve_engine.md section 4) -/

theorem Memory.readWord_congr
    (h : ∀ i < 4, m.readByte (a + BitVec.ofNat 32 i) = m'.readByte (a + BitVec.ofNat 32 i)) :
    m.readWord a = m'.readWord a := by
  have h0 : m.readByte a = m'.readByte a := by simpa using h 0 (by decide)
  have h1 : m.readByte (a + 1) = m'.readByte (a + 1) := h 1 (by decide)
  have h2 : m.readByte (a + 2) = m'.readByte (a + 2) := h 2 (by decide)
  have h3 : m.readByte (a + 3) = m'.readByte (a + 3) := h 3 (by decide)
  rw [readWord, readWord, h0, h1, h2, h3]

/-- The memories hold the same bytes in the bank. -/
def State.AgreeInBank (s : State) (bank : Bank) (m m' : Memory) : Prop :=
  ∀ a, s.inBank bank a = true → m.readByte a = m'.readByte a

theorem State.AgreeInBank.readWord_eq (h : s.AgreeInBank bank m m') (ha : s.params.Admissible)
    (hc : c < wordCount s.params) :
    m.readWord (s.bankWordAddr bank c) = m'.readWord (s.bankWordAddr bank c) := by
  refine Memory.readWord_congr fun i hi => h _ (inBank_of_mem_word ha hc ?_)
  rw [toNat_add_ofNat_sub _ (by omega)]
  exact hi

/-- Two states that place every plot alike keep two memories in agreement. -/
theorem State.AgreeInBank.plotPoint (h : s.AgreeInBank bank m m') (ha : s.params.Admissible)
    (htarget : ∀ x y, s'.plotTarget bank' x y = s.plotTarget bank x y) (pt : Point) :
    s.AgreeInBank bank (s.plotPoint bank m pt) (s'.plotPoint bank' m' pt) := by
  intro a hin
  have htarget' := htarget pt.x pt.y
  cases ht : s.plotTarget bank pt.x pt.y with
  | none =>
    rw [ht] at htarget'
    rw [plotPoint_of_plotTarget_none ht, plotPoint_of_plotTarget_none htarget', h a hin]
  | some target =>
    obtain ⟨addr, px⟩ := target
    obtain ⟨c, hc, rfl⟩ := plotTarget_some ha ht
    rw [ht] at htarget'
    rw [plotPoint_of_plotTarget_some ht, plotPoint_of_plotTarget_some htarget', Memory.readByte_writeWord,
      Memory.readByte_writeWord, h.readWord_eq ha hc, h a hin]

theorem State.AgreeInBank.foldl_plotPoint (h : s.AgreeInBank bank m m') (ha : s.params.Admissible)
    (htarget : ∀ x y, s'.plotTarget bank' x y = s.plotTarget bank x y) (points : List Point) :
    s.AgreeInBank bank (points.foldl (s.plotPoint bank) m) (points.foldl (s'.plotPoint bank') m') := by
  induction points generalizing m m' with
  | nil => exact h
  | cons pt points ih => exact ih (h.plotPoint ha htarget pt)

/-- The registers and parameters by which a plot is placed (R160, R161, 20_memory.md R65). -/
theorem plotTarget_congr (hscale : s.scalemul = s'.scalemul) (hxpan : s.xpan = s'.xpan) (hypan : s.ypan = s'.ypan)
    (hwidth : s.params.width = s'.params.width) (hheight : s.params.height = s'.params.height)
    (hbase : s.fbBase bank = s'.fbBase bank') (x y : Word) :
    s'.plotTarget bank' x y = s.plotTarget bank x y := by
  have hxform (v pan : Word) : s'.xform v pan = s.xform v pan := by rw [State.xform, State.xform, hscale]
  have hin (px py : Word) : s'.inBounds px py = s.inBounds px py := by
    rw [Bool.eq_iff_iff, inBounds_iff, inBounds_iff, hwidth, hheight]
  have haddr (px py : Nat) : s'.fbAddr bank' px py = s.fbAddr bank px py := by
    rw [State.fbAddr, State.fbAddr, State.bankWordAddr, State.bankWordAddr, hwidth, hbase]
  rw [plotTarget_eq_ite, plotTarget_eq_ite, ← hxpan, ← hypan, hxform, hxform, hin, haddr]

end BankWords

/-! ### The statements -/

/-- Settles O33: command by command, by what it does to memory. -/
theorem commandsStayInsideTheirBank : Obligations.CommandsStayInsideTheirBank := by
  intro s i ha hs
  cases i with
  | clear b => exact ⟨_, exec_clear_of_idle b hs, fun a hout => readByte_clearBank_outside ha (hout _ rfl) _⟩
  | render => exact ⟨_, exec_render_of_idle hs, fun a hout => readByte_renderBank_outside ha (hout _ rfl) _⟩
  | draw => exact ⟨_, exec_draw_of_idle hs, fun a hout => readByte_drawBank_outside ha (hout _ rfl) _⟩
  | plot => exact ⟨_, exec_plot_of_idle hs, fun a hout => readByte_plotPoint_outside ha (hout _ rfl) _ _⟩
  | nop | present | advance | wlookup idx | glookup gidx | cstep =>
    refine (exec_next _ s).imp fun t ht => ⟨ht, fun a _ => ?_⟩
    obtain ⟨-, -, hmem⟩ := exec_completes_of_not_touchesMemory hs rfl ht
    rw [hmem]

/-- Settles O30: both frames have the same points, and each is plotted at the same word from the same bytes. -/
theorem renderReadsNothingElse : Obligations.RenderReadsNothingElse := by
  intro s s' ha _ hs hs' hphase hquarter hscale hxpan hypan hwidth hheight hbase hagree
  refine ⟨_, _, exec_render_of_idle hs, exec_render_of_idle hs', ?_⟩
  have hpoints : framePoints s'.params.quarter s'.phase = framePoints s.params.quarter s.phase := by
    rw [hquarter, frameDependsOnPhaseModN _ _ _ hphase]
  have hfold := State.AgreeInBank.foldl_plotPoint hagree ha
    (plotTarget_congr hscale hxpan hypan hwidth hheight hbase) (framePoints s.params.quarter s.phase)
  unfold State.renderBank
  rw [hpoints]
  exact hfold

end Sys2Proof.Machine

/-! # Memory operations that may be done twice

20_memory.md section 3, 44_frame_control.md section 2. What CLEAR, PLOT and RENDER do to each byte does not depend on
the other bytes: it is kept, written back as it is read, or set to a value (`ByteEffect`). Each of the three done twice
is the same as once, and so is every chain of them, so these operations are idempotent on canonical memories. -/

namespace Sys2Proof.Machine

/-! ### Canonical memories are equal when they hold the same bytes -/

section Extensionality

theorem Memory.get?_eq_none_of_lt_head {m : Memory} {k n : Nat} {v : Byte} (hwf : Memory.wf ((k, v) :: m) = true)
    (hn : n < k) : Memory.get? ((k, v) :: m) n = none := by
  induction m generalizing k v with
  | nil => simp [Memory.get?, hn.ne']
  | cons cell m ih =>
    obtain ⟨l, u⟩ := cell
    obtain ⟨hkl, hwf'⟩ := (Memory.wf_cons_iff k v ((l, u) :: m)).1 hwf
    rw [Memory.get?, if_neg hn.ne', ih hwf' (lt_trans hn hkl)]

theorem Memory.get?_tail_of_le {m : Memory} {k n : Nat} {v : Byte} (hwf : Memory.wf ((k, v) :: m) = true)
    (hn : n ≤ k) : m.get? n = none := by
  obtain ⟨hhead, hwf'⟩ := (Memory.wf_cons_iff k v m).1 hwf
  cases m with
  | nil => rfl
  | cons cell m =>
    obtain ⟨l, u⟩ := cell
    exact get?_eq_none_of_lt_head hwf' (lt_of_le_of_lt hn hhead)

/-- Of two canonical memories with the same bytes neither starts before the other. -/
theorem Memory.head_le_of_get?_eq {m m' : Memory} {k l : Nat} {u v : Byte}
    (hwf' : Memory.wf ((l, v) :: m') = true)
    (h : ∀ n, Memory.get? ((k, u) :: m) n = Memory.get? ((l, v) :: m') n) : l ≤ k := by
  by_contra hlt
  have hk := h k
  rw [get?_eq_none_of_lt_head hwf' (not_le.1 hlt), Memory.get?, if_pos rfl] at hk
  cases hk

theorem Memory.eq_of_get?_eq {m m' : Memory} (hwf : m.wf = true) (hwf' : m'.wf = true)
    (h : ∀ n, m.get? n = m'.get? n) : m = m' := by
  induction m generalizing m' with
  | nil =>
    cases m' with
    | nil => rfl
    | cons cell m' =>
      obtain ⟨l, v⟩ := cell
      simpa [Memory.get?] using h l
  | cons cell m ih =>
    obtain ⟨k, u⟩ := cell
    cases m' with
    | nil => simpa [Memory.get?] using h k
    | cons cell' m' =>
      obtain ⟨l, v⟩ := cell'
      obtain rfl : k = l :=
        le_antisymm (head_le_of_get?_eq hwf fun n => (h n).symm) (head_le_of_get?_eq hwf' h)
      have huv : u = v := by simpa [Memory.get?] using h k
      have htail : m = m' := by
        refine ih ((wf_cons_iff k u m).1 hwf).2 ((wf_cons_iff k v m').1 hwf').2 fun n => ?_
        obtain hle | hlt := le_or_gt n k
        · rw [get?_tail_of_le hwf hle, get?_tail_of_le hwf' hle]
        · simpa [Memory.get?, hlt.ne] using h n
      rw [huv, htail]

end Extensionality

/-! ### What an operation does to one byte -/

section Bytewise

/-- What an operation does to the byte at one address. -/
inductive ByteEffect where
  /-- the byte is not accessed -/
  | keep
  /-- the byte is written back with the value it is read with -/
  | rewrite
  /-- the byte is written -/
  | set (v : Byte)

/-- The effect at address `n`, on the value last written there. -/
def ByteEffect.apply (n : Nat) : ByteEffect → Option Byte → Option Byte
  | .keep, x => x
  | .rewrite, x => some (x.getD (Config.unwrittenByte n))
  | .set v, _ => some v

theorem ByteEffect.apply_apply (n : Nat) (e : ByteEffect) (x : Option Byte) :
    e.apply n (e.apply n x) = e.apply n x := by
  cases e <;> rfl

theorem ByteEffect.exists_comp (n : Nat) (e f : ByteEffect) :
    ∃ g : ByteEffect, ∀ x, f.apply n (e.apply n x) = g.apply n x := by
  cases f with
  | keep => exact ⟨e, fun _ => rfl⟩
  | set v => exact ⟨.set v, fun _ => rfl⟩
  | rewrite =>
    cases e with
    | keep | rewrite => exact ⟨.rewrite, fun _ => rfl⟩
    | set v => exact ⟨.set v, fun _ => rfl⟩

/-- The operation has one effect on each byte, whatever the memory. -/
def IsBytewise (op : Memory → Memory) : Prop :=
  ∀ n, ∃ e : ByteEffect, ∀ m : Memory, (op m).get? n = e.apply n (m.get? n)

variable {op op' : Memory → Memory}

theorem isBytewise_id : IsBytewise fun m => m := fun _ => ⟨.keep, fun _ => rfl⟩

theorem IsBytewise.comp (h' : IsBytewise op') (h : IsBytewise op) : IsBytewise fun m => op' (op m) := by
  intro n
  obtain ⟨e, he⟩ := h n
  obtain ⟨f, hf⟩ := h' n
  obtain ⟨g, hg⟩ := e.exists_comp n f
  exact ⟨g, fun m => by rw [hf, he, hg]⟩

theorem isBytewise_foldl {α : Type} {write : Memory → α → Memory} (h : ∀ x, IsBytewise fun m => write m x)
    (l : List α) : IsBytewise fun m => l.foldl write m := by
  induction l with
  | nil => exact isBytewise_id
  | cons x l ih => exact ih.comp (h x)

theorem IsBytewise.idempotent (h : IsBytewise op) (hwf : ∀ m : Memory, m.wf = true → (op m).wf = true) {m : Memory}
    (hm : m.wf = true) : op (op m) = op m := by
  refine Memory.eq_of_get?_eq (hwf _ (hwf m hm)) (hwf m hm) fun n => ?_
  obtain ⟨e, he⟩ := h n
  rw [he, he, e.apply_apply]

/-! ### The writes of the block -/

theorem Memory.get?_writeByte (m : Memory) (a : Word) (v : Byte) (n : Nat) :
    (m.writeByte a v).get? n = if n = a.toNat then some v else m.get? n := by
  split
  case isTrue h => rw [h, writeByte, get?_insert_self]
  case isFalse h => rw [writeByte, get?_insert_ne m v h]

theorem isBytewise_writeByte (a : Word) (v : Byte) : IsBytewise fun m => m.writeByte a v := by
  intro n
  by_cases h : n = a.toNat
  · exact ⟨.set v, fun m => by rw [m.get?_writeByte, if_pos h]; rfl⟩
  · exact ⟨.keep, fun m => by rw [m.get?_writeByte, if_neg h]; rfl⟩

/-- The byte at `a` read and written back. -/
def Memory.rewriteByte (a : Word) (m : Memory) : Memory := m.writeByte a (m.readByte a)

theorem isBytewise_rewriteByte (a : Word) : IsBytewise (Memory.rewriteByte a) := by
  intro n
  by_cases h : n = a.toNat
  · exact ⟨.rewrite, fun m => by rw [Memory.rewriteByte, m.get?_writeByte, if_pos h, h]; rfl⟩
  · exact ⟨.keep, fun m => by rw [Memory.rewriteByte, m.get?_writeByte, if_neg h]; rfl⟩

theorem isBytewise_writeWord (a v : Word) : IsBytewise fun m => m.writeWord a v :=
  (isBytewise_writeByte (a + 3) _).comp ((isBytewise_writeByte (a + 2) _).comp
    ((isBytewise_writeByte (a + 1) _).comp (isBytewise_writeByte a _)))

end Bytewise

section PackBytes

variable {w px : Word} {c : Color}

/-! ### The bytes of a packed word (43_compositor.md R162) -/

theorem lumaEven_append (b0 b1 b2 b3 : Byte) : lumaEven (b0 ++ b1 ++ b2 ++ b3) = b0 := by
  rw [lumaEven, BitVec.extractLsb'_append_eq_of_le (by decide), BitVec.extractLsb'_append_eq_of_le (by decide)]
  exact BitVec.extractLsb'_append_eq_left

theorem chromaU_append (b0 b1 b2 b3 : Byte) : chromaU (b0 ++ b1 ++ b2 ++ b3) = b1 := by
  rw [chromaU, BitVec.extractLsb'_append_eq_of_le (by decide), BitVec.extractLsb'_append_eq_of_le (by decide)]
  exact BitVec.extractLsb'_append_eq_right

theorem lumaOdd_append (b0 b1 b2 b3 : Byte) : lumaOdd (b0 ++ b1 ++ b2 ++ b3) = b2 := by
  rw [lumaOdd, BitVec.extractLsb'_append_eq_of_le (by decide)]
  exact BitVec.extractLsb'_append_eq_right

theorem chromaV_append (b0 b1 b2 b3 : Byte) : chromaV (b0 ++ b1 ++ b2 ++ b3) = b3 :=
  BitVec.extractLsb'_append_eq_right

theorem Memory.writeWord_eq_writeBytes (m : Memory) (a v : Word) : m.writeWord a v =
    (((m.writeByte a (lumaEven v)).writeByte (a + 1) (chromaU v)).writeByte (a + 2) (lumaOdd v)).writeByte (a + 3)
      (chromaV v) := rfl

/-- Four bytes written from `a` on, as a word. -/
theorem Memory.writeWord_append (m : Memory) (a : Word) (b0 b1 b2 b3 : Byte) :
    m.writeWord a (b0 ++ b1 ++ b2 ++ b3) =
      (((m.writeByte a b0).writeByte (a + 1) b1).writeByte (a + 2) b2).writeByte (a + 3) b3 := by
  rw [writeWord_eq_writeBytes, lumaEven_append, chromaU_append, lumaOdd_append, chromaV_append]

theorem Memory.lumaEven_readWord (m : Memory) (a : Word) : lumaEven (m.readWord a) = m.readByte a :=
  lumaEven_append _ _ _ _

theorem Memory.lumaOdd_readWord (m : Memory) (a : Word) : lumaOdd (m.readWord a) = m.readByte (a + 2) :=
  lumaOdd_append _ _ _ _

/-- A plot sets three bytes of its word and writes the other pixel's luma back. -/
theorem isBytewise_pack (a px : Word) (c : Color) :
    IsBytewise fun m => m.writeWord a (pack (m.readWord a) px c) := by
  obtain heven | hodd : px.toNat % 2 = 0 ∨ px.toNat % 2 = 1 := by omega
  · have hbytes (m : Memory) : m.writeWord a (pack (m.readWord a) px c) =
        (Memory.rewriteByte (a + 2) ((m.writeByte a (colorY c)).writeByte (a + 1) (colorU c))).writeByte (a + 3)
          (colorV c) := by
      have h1 : a + 2 ≠ a + 1 := by simp
      have h0 : a + 2 ≠ a := by simp
      rw [pack_of_even heven, Memory.writeWord_append, Memory.lumaOdd_readWord, Memory.rewriteByte,
        Memory.readByte_writeByte_ne _ _ h1, Memory.readByte_writeByte_ne _ _ h0]
    simp only [hbytes]
    exact (isBytewise_writeByte _ _).comp ((isBytewise_rewriteByte _).comp
      ((isBytewise_writeByte _ _).comp (isBytewise_writeByte _ _)))
  · have hbytes (m : Memory) : m.writeWord a (pack (m.readWord a) px c) =
        (((Memory.rewriteByte a m).writeByte (a + 1) (colorU c)).writeByte (a + 2) (colorY c)).writeByte (a + 3)
          (colorV c) := by
      rw [pack_of_odd hodd, Memory.writeWord_append, Memory.lumaEven_readWord, Memory.rewriteByte]
    simp only [hbytes]
    exact (isBytewise_writeByte _ _).comp ((isBytewise_writeByte _ _).comp
      ((isBytewise_writeByte _ _).comp (isBytewise_rewriteByte _)))

end PackBytes

section Idempotence

variable {s : State} {bank : Bank}

/-! ### Clears, plots and frames -/

theorem isBytewise_plotPoint (s : State) (bank : Bank) (pt : Point) : IsBytewise fun m => s.plotPoint bank m pt := by
  cases ht : s.plotTarget bank pt.x pt.y with
  | none =>
    simp only [plotPoint_of_plotTarget_none ht]
    exact isBytewise_id
  | some target =>
    simp only [plotPoint_of_plotTarget_some (addr := target.1) (px := target.2) ht]
    exact isBytewise_pack _ _ _

theorem isBytewise_clearWords (s : State) (bank : Bank) (n c : Nat) : IsBytewise (s.clearWords bank n c) := by
  induction n generalizing c with
  | zero => exact isBytewise_id
  | succ n ih => exact (ih (c + 1)).comp (isBytewise_writeWord _ _)

theorem isBytewise_clearBank (s : State) (bank : Bank) : IsBytewise (s.clearBank bank) :=
  isBytewise_clearWords s bank _ 0

theorem isBytewise_renderBank (s : State) (bank : Bank) : IsBytewise (s.renderBank bank) :=
  isBytewise_foldl (isBytewise_plotPoint s bank) _

/-- A clear looks at the bank's place and BG_WORD only. -/
theorem clearWords_congr {t : State} (haddr : t.bankWordAddr bank = s.bankWordAddr bank)
    (hbg : t.params.bgWord = s.params.bgWord) (n c : Nat) (m : Memory) :
    t.clearWords bank n c m = s.clearWords bank n c m := by
  induction n generalizing c m with
  | zero => rfl
  | succ n ih => rw [State.clearWords, State.clearWords, haddr, hbg, ih]

theorem clearBank_congr {t : State} (haddr : t.bankWordAddr bank = s.bankWordAddr bank) (hp : t.params = s.params)
    (m : Memory) : t.clearBank bank m = s.clearBank bank m := by
  rw [State.clearBank, State.clearBank, hp, clearWords_congr haddr (by rw [hp])]

/-- What CLEAR writes, and where, does not depend on DONE or on the memory the state holds. -/
theorem clearBank_of_mem_done (s : State) (m' : Memory) (d : Bool) (bank : Bank) (m : Memory) :
    State.clearBank { s with mem := m', done := d } bank m = s.clearBank bank m :=
  clearBank_congr (s := s) (t := { s with mem := m', done := d }) rfl rfl m

theorem clearBank_setSeq (s : State) (q : Seq) (bank : Bank) (m : Memory) :
    (s.setSeq q).clearBank bank m = s.clearBank bank m :=
  clearBank_congr (s := s) (t := s.setSeq q) rfl rfl m

theorem clear_twice_mem (b : Nat) (hm : s.mem.wf = true) (hs : s.seq = .idle) :
    ∃ t u, exec (.clear b) s = .next t ∧ exec (.clear b) t = .next u ∧ u.mem = t.mem := by
  refine ⟨_, _, exec_clear_of_idle b hs,
    exec_clear_of_idle (s := { s with mem := s.clearBank (bankOf b) s.mem, done := true }) b hs, ?_⟩
  simp only [clearBank_of_mem_done]
  exact (isBytewise_clearBank s _).idempotent (fun m => clearWords_wf _ _ 0 m) hm

theorem plot_twice_mem (hm : s.mem.wf = true) (hs : s.seq = .idle) :
    ∃ t u, exec .plot s = .next t ∧ exec .plot t = .next u ∧ u.mem = t.mem := by
  refine ⟨_, _, exec_plot_of_idle hs, exec_plot_of_idle
    (s := { s with mem := s.plotPoint s.active s.mem ⟨s.ptX, s.ptY, s.ptColor⟩, done := true }) hs, ?_⟩
  simp only [plotPoint_of_mem_done]
  exact (isBytewise_plotPoint s _ _).idempotent (fun m => plotPoint_wf _ m _) hm

/-! ### A frame with TRAILS = 1 and SPEED = 0 (44_frame_control.md section 2) -/

theorem exec_draw_of_trails (hs : s.seq = .idle) (ht : s.trails = true) :
    exec .draw s = .next { s with mem := s.renderBank s.active s.mem, done := true } := by
  rw [exec_draw_of_idle hs, drawBank_of_trails ht]

theorem exec_present_of_trails (hs : s.seq = .idle) (ht : s.trails = true) :
    exec .present s = .next { s with presented := s.active, done := true } := by
  rw [exec_present_of_idle hs, if_pos ht]

theorem exec_advance_of_speed_zero (hs : s.seq = .idle) (hspeed : s.speed = 0) :
    exec .advance s = .next { s with done := true } := by
  have hphase : s.phase + s.speed = s.phase := by rw [hspeed]; exact BitVec.add_zero _
  rw [exec_advance_of_idle hs, hphase]

end Idempotence

/-! ### The statements -/

/-- Settles O34: both operations are bytewise. -/
theorem clearAndPlotAreIdempotent : Obligations.ClearAndPlotAreIdempotent := by
  rintro s i ⟨-, hm, -⟩ hs (rfl | rfl | rfl)
  · exact clear_twice_mem 0 hm hs
  · exact clear_twice_mem 1 hm hs
  · exact plot_twice_mem hm hs

/-- Settles O35: neither PRESENT with TRAILS = 1 nor ADVANCE with SPEED = 0 changes what DRAW reads, and the second
DRAW is the first one's RENDER done twice. -/
theorem repeatedTrailsFrameChangesNothing : Obligations.RepeatedTrailsFrameChangesNothing := by
  intro s hinv hs ht hspeed
  obtain ⟨-, hm, -⟩ := hinv
  refine ⟨_, _, _, _, exec_draw_of_trails hs ht, exec_present_of_trails hs ht, exec_advance_of_speed_zero hs hspeed,
    exec_draw_of_trails hs ht, ?_, rfl, rfl⟩
  exact (isBytewise_renderBank s s.active).idempotent (fun m => renderBank_wf _ m) hm

end Sys2Proof.Machine

/-! # DRAW at scale 0

44_frame_control.md section 1. At SCALEMUL = 0 every point is plotted at (XPAN, YPAN), so a frame only packs into one
word, whose last colour is the frame's last one. -/

namespace Sys2Proof.Machine

section ZeroScale

variable {s : State} {bank : Bank} {m : Memory} {w px : Word} {c c' : Color}

theorem xform_of_zero_scale (h : s.scalemul = 0) (v pan : Word) : s.xform v pan = pan := by
  have hzero : v * s.scalemul = 0 := by rw [h]; exact BitVec.mul_zero
  rw [State.xform, hzero]
  simp

/-- The later colour of two packed into one pixel is the one that stays (43_compositor.md R162). -/
theorem pack_pack : pack (pack w px c) px c' = pack w px c' := by
  obtain heven | hodd : px.toNat % 2 = 0 ∨ px.toNat % 2 = 1 := by omega
  · simp only [pack_of_even heven, lumaOdd_append]
  · simp only [pack_of_odd hodd, lumaEven_append]

/-! ### The words of two pixels (20_memory.md R65) -/

/-- Different words of a bank have no byte in common. -/
theorem not_mem_word_of_ne {c d i : Nat} (ha : s.params.Admissible) (hc : c < wordCount s.params)
    (hd : d < wordCount s.params) (hi : i < 4) (hne : c ≠ d) :
    ¬ (s.bankWordAddr bank c + BitVec.ofNat 32 i - s.bankWordAddr bank d).toNat < 4 := by
  have hcount := four_mul_wordCount_le ha
  obtain ⟨hword, -⟩ := toNat_sub_bankWordAddr (s := s) (bank := bank) (c := d) (by omega)
    (s.bankWordAddr bank c + BitVec.ofNat 32 i)
  rw [hword, toNat_bankWordAddr_add_sub (by omega)]
  omega

/-- Pixels share a word exactly when they lie in one pair of columns of one row. -/
theorem pixelWord_eq_iff {n x y x' y' : Nat} (hx : x / 2 < n) (hx' : x' / 2 < n) :
    y * n + x / 2 = y' * n + x' / 2 ↔ x / 2 = x' / 2 ∧ y = y' := by
  constructor
  · intro h
    have hn : 0 < n := by omega
    have hy : y = y' := by
      have hdiv := congrArg (· / n) h
      simpa only [Nat.mul_comm _ n, Nat.mul_add_div hn, Nat.div_eq_of_lt hx, Nat.div_eq_of_lt hx', Nat.add_zero]
        using hdiv
    subst hy
    omega
  · rintro ⟨h, rfl⟩
    rw [h]

/-! ### Plots into one word -/

/-- The word of pixel (XPAN, YPAN). -/
def State.panWord (s : State) (bank : Bank) : Word := s.fbAddr bank s.xpan.toNat s.ypan.toNat

variable (hscale : s.scalemul = 0) (hin : s.inBounds s.xpan s.ypan = true)

include hscale hin

theorem plotPoint_of_zero_scale (m : Memory) (pt : Point) : s.plotPoint bank m pt =
    m.writeWord (s.panWord bank) (pack (m.readWord (s.panWord bank)) s.xpan pt.color) :=
  plotPoint_of_inBounds (xform_of_zero_scale hscale _ _).symm (xform_of_zero_scale hscale _ _).symm hin

theorem pack_readWord_foldl (points : List Point) (m : Memory) (c : Color) :
    pack ((points.foldl (s.plotPoint bank) m).readWord (s.panWord bank)) s.xpan c =
      pack (m.readWord (s.panWord bank)) s.xpan c := by
  induction points generalizing m with
  | nil => rfl
  | cons pt points ih =>
    rw [List.foldl_cons, ih, plotPoint_of_zero_scale hscale hin, Memory.readWord_writeWord_self, pack_pack]

/-- The plotted word after a frame: the last point's colour packed into the word before the frame. -/
theorem readWord_renderBank_panWord (m : Memory) :
    (s.renderBank bank m).readWord (s.panWord bank) = pack (m.readWord (s.panWord bank)) s.xpan 0xD11190 := by
  obtain ⟨hlength, hpoint⟩ := frameTraversal s.params.quarter s.phase
  have hlast := hpoint 63 1023 (by decide) (by decide)
  have hcolor : gromEntry (63 * 1024 + 1023) = 0xD11190 := by decide
  rw [hcolor, show 63 * 1024 + 1023 = 65536 - 1 from rfl, ← hlength, ← List.getLast?_eq_getElem?] at hlast
  rw [State.renderBank, ← List.dropLast_append_getLast? _ hlast, List.foldl_append, List.foldl_cons, List.foldl_nil,
    plotPoint_of_zero_scale hscale hin, Memory.readWord_writeWord_self, pack_readWord_foldl hscale hin]

/-- The bytes outside the plotted word after a frame. -/
theorem readByte_renderBank_of_zero_scale {a : Word} (hout : ¬ (a - s.panWord bank).toNat < 4) (m : Memory) :
    (s.renderBank bank m).readByte a = m.readByte a := by
  rw [State.renderBank]
  generalize framePoints s.params.quarter s.phase = points
  induction points generalizing m with
  | nil => rfl
  | cons pt points ih =>
    rw [List.foldl_cons, ih, plotPoint_of_zero_scale hscale hin, Memory.readByte_writeWord, if_neg hout]

end ZeroScale

/-! ### The statement -/

/-- Settles O36: the clear fills the bank, and the frame changes only the word of pixel (XPAN, YPAN). -/
theorem drawAtZeroScale : Obligations.DrawAtZeroScale := by
  intro s ha hs ht hscale hin
  refine ⟨_, exec_draw_of_idle hs, fun px py hpx hpy => ?_⟩
  have heven : s.params.width % 2 = 0 := ha.1
  obtain ⟨hxpan, hypan⟩ := toNat_of_inBounds hin
  have hword := pixelWord_lt ha hpx hpy
  have hpan := pixelWord_lt ha hxpan hypan
  have hiff := pixelWord_eq_iff (n := s.params.width / 2) (x := px) (y := py) (x' := s.xpan.toNat)
    (y' := s.ypan.toNat) (by omega) (by omega)
  have hcleared : (s.clearBank s.active s.mem).readWord (s.fbAddr s.active px py) = s.params.bgWord :=
    readWord_clearBank ha s.mem hword
  rw [drawBank_of_not_trails (by simp [ht])]
  split
  case isTrue hpixel =>
    have haddr : s.fbAddr s.active px py = s.panWord s.active := by
      rw [State.panWord, State.fbAddr, State.fbAddr, hiff.2 hpixel]
    rw [haddr] at hcleared ⊢
    rw [readWord_renderBank_panWord hscale hin, hcleared]
  case isFalse hpixel =>
    rw [← hcleared]
    exact Memory.readWord_congr fun i hi => readByte_renderBank_of_zero_scale hscale hin
      (not_mem_word_of_ne ha hword hpan hi (mt hiff.1 hpixel)) _

end Sys2Proof.Machine

/-! # The engine's invariant

10_state.md R43 to R45, 42_curve_engine.md section 2, 43_compositor.md R163 and R164. One equation for each kind of
engine step (`renderTurn_of_point` and the others), one lemma for each sequencer state of `State.seqOk`, and from them
that an engine step keeps the invariant and what it accesses. -/

namespace Sys2Proof.Machine

section Turns

variable {s t : State} {i : Instr} {bank : Bank} {c : Word} {f : FrameRegs}

/-! ### The kinds of engine step -/

theorem clearTurn_of_lt (h : c.toNat < wordCount s.params) : clearTurn i bank c s =
    (s.setMem (s.mem.writeWord (s.bankWordAddr bank c.toNat) s.params.bgWord)).setSeq
      (.busy i (.clearing bank (c + 1))) := if_pos h

theorem clearTurn_of_ge (h : wordCount s.params ≤ c.toNat) : clearTurn i bank c s = afterClear i bank s :=
  if_neg (not_lt.2 h)

theorem afterClear_of_ne_draw (h : i ≠ .draw) : afterClear i bank s = s.complete := by
  cases i
  case draw => exact absurd rfl h
  all_goals rfl

/-- The frame after the next point, and the point itself (42_curve_engine.md R143, R144). -/
def FrameRegs.afterPoint (f : FrameRegs) (quarter : List (BitVec 15)) : FrameRegs :=
  f.nextPoint (curveStep quarter f.ip1 f.ip2 f.ix f.iy).1 (curveStep quarter f.ip1 f.ip2 f.ix f.iy).2

def FrameRegs.point (f : FrameRegs) (quarter : List (BitVec 15)) : Point :=
  ⟨(curveStep quarter f.ip1 f.ip2 f.ix f.iy).1, (curveStep quarter f.ip1 f.ip2 f.ix f.iy).2, gromEntry f.g.toNat⟩

/-- A point with its read goes on to its write, one out of bounds to the next point (43_compositor.md R163). -/
def FrameRegs.afterRead (f : FrameRegs) : Option PlotAccess → Progress
  | none => .rendering f
  | some a => .plotting f a

theorem renderTurn_of_point (hk : f.k.toNat < slots) (hj : f.j.toNat < iterations) : renderTurn i f s =
    s.setSeq (.busy i ((f.afterPoint s.params.quarter).afterRead
      (s.plotRead f.bank (f.point s.params.quarter)))) := by
  rw [renderTurn, if_pos hk, if_pos hj]
  dsimp only
  rw [← FrameRegs.point]
  cases s.plotRead f.bank (f.point s.params.quarter) <;> rfl

theorem renderTurn_of_slot_end (hk : f.k.toNat < slots) (hj : iterations ≤ f.j.toNat) :
    renderTurn i f s = s.setSeq (.busy i (.rendering f.nextSlot)) := by
  rw [renderTurn, if_pos hk, if_neg (not_lt.2 hj)]

theorem renderTurn_of_frame_end (hk : slots ≤ f.k.toNat) : renderTurn i f s = s.complete :=
  if_neg (not_lt.2 hk)

theorem engineTurn_of_busy_seq {p : Progress} (hs : s.seq = .busy i p) : engineTurn s = engineStep i p s := by
  rw [engineTurn, hs]

theorem engineTurn_of_clearing (hs : s.seq = .busy i (.clearing bank c)) :
    engineTurn s = .next (clearTurn i bank c s) := engineTurn_of_busy_seq hs

theorem engineTurn_of_rendering (hs : s.seq = .busy i (.rendering f)) :
    engineTurn s = .next (renderTurn i f s) := engineTurn_of_busy_seq hs

theorem engineTurn_of_plotting {a : PlotAccess} (hs : s.seq = .busy i (.plotting f a)) :
    engineTurn s = .next ((s.plotWrite a).setSeq (.busy i (.rendering f))) := engineTurn_of_busy_seq hs

theorem engineTurn_of_writing {a : PlotAccess} (hs : s.seq = .busy i (.writing a)) :
    engineTurn s = .next ((s.plotWrite a).setSeq (.busy i .finish)) := engineTurn_of_busy_seq hs

theorem engineTurn_of_finish (hs : s.seq = .busy i .finish) : engineTurn s = .next s.complete :=
  engineTurn_of_busy_seq hs

end Turns

section Counters

variable {f : FrameRegs}

/-! ### The counters of a frame (10_state.md R44, 42_curve_engine.md R144) -/

/-- `g` counts the points before point j of slot k. -/
structure FrameRegs.Counted (f : FrameRegs) : Prop where
  slot_le : f.k.toNat ≤ 64
  iteration_le : f.j.toNat ≤ 1024
  no_point_after_frame : f.k.toNat = 64 → f.j.toNat = 0
  index_eq : f.g.toNat = f.k.toNat * 1024 + f.j.toNat

theorem frameStart_counted (bank : Bank) (t : Word) : (frameStart bank t).Counted := by
  have hk : (frameStart bank t).k.toNat = 0 := rfl
  have hj : (frameStart bank t).j.toNat = 0 := rfl
  have hg : (frameStart bank t).g.toNat = 0 := rfl
  constructor <;> omega

theorem FrameRegs.toNat_nextPoint_j (hj : f.j.toNat < 1024) (x y : Word) :
    (f.nextPoint x y).j.toNat = f.j.toNat + 1 := by
  simp only [nextPoint, BitVec.toNat_add, BitVec.ofNat_eq_ofNat, BitVec.toNat_ofNat]
  omega

theorem FrameRegs.Counted.toNat_nextPoint_g (h : f.Counted) (hk : f.k.toNat < 64) (hj : f.j.toNat < 1024)
    (x y : Word) : (f.nextPoint x y).g.toNat = f.g.toNat + 1 := by
  have hg := h.index_eq
  simp only [nextPoint, BitVec.toNat_add, BitVec.ofNat_eq_ofNat, BitVec.toNat_ofNat]
  omega

theorem FrameRegs.toNat_nextSlot_k (hk : f.k.toNat < 64) : f.nextSlot.k.toNat = f.k.toNat + 1 := by
  simp only [nextSlot, BitVec.toNat_add, BitVec.ofNat_eq_ofNat, BitVec.toNat_ofNat]
  omega

theorem FrameRegs.Counted.nextPoint (h : f.Counted) (hk : f.k.toNat < 64) (hj : f.j.toNat < 1024) (x y : Word) :
    (f.nextPoint x y).Counted := by
  have hg := h.index_eq
  have hk' : (f.nextPoint x y).k.toNat = f.k.toNat := rfl
  have hj' := FrameRegs.toNat_nextPoint_j hj x y
  have hg' := h.toNat_nextPoint_g hk hj x y
  constructor <;> omega

theorem FrameRegs.Counted.nextSlot (h : f.Counted) (hk : f.k.toNat < 64) (hj : 1024 ≤ f.j.toNat) :
    f.nextSlot.Counted := by
  have hg := h.index_eq
  have hle := h.iteration_le
  have hk' := FrameRegs.toNat_nextSlot_k hk
  have hj' : f.nextSlot.j.toNat = 0 := rfl
  have hg' : f.nextSlot.g.toNat = f.g.toNat := rfl
  constructor <;> omega

end Counters

section SeqOk

variable {s : State} {i : Instr} {bank : Bank} {c : Word} {f : FrameRegs} {a : PlotAccess}

/-! ### The sequencer states of a run -/

theorem frameOk_iff : s.frameOk i f = true ↔
    (i = .render ∨ i = .draw) ∧ f.bank = s.active ∧ f.Counted ∧
      f.ip1 = s.phase + BitVec.ofNat 32 (f.k.toNat * 278) ∧ f.ip2 = s.phase + BitVec.ofNat 32 (f.k.toNat * 10430) := by
  simp only [State.frameOk, Bool.and_eq_true, decide_eq_true_eq]
  constructor
  · rintro ⟨⟨⟨⟨⟨⟨⟨hi, hbank⟩, hk⟩, hj⟩, hend⟩, hg⟩, h1⟩, h2⟩
    exact ⟨hi, hbank, ⟨hk, hj, hend, hg⟩, h1, h2⟩
  · rintro ⟨hi, hbank, ⟨hk, hj, hend, hg⟩, h1, h2⟩
    exact ⟨⟨⟨⟨⟨⟨⟨hi, hbank⟩, hk⟩, hj⟩, hend⟩, hg⟩, h1⟩, h2⟩

theorem seqOk_of_idle (hs : s.seq = .idle) : s.seqOk = true := by
  rw [State.seqOk, hs]

theorem seqOk_start_iff (hs : s.seq = .busy i .start) : s.seqOk = true ↔ i.wf = true := by
  simp [State.seqOk, hs]

theorem seqOk_clearing_iff (hs : s.seq = .busy i (.clearing bank c)) : s.seqOk = true ↔
    i.wf = true ∧ c.toNat ≤ wordCount s.params ∧
      ((∃ b, i = .clear b ∧ bank = bankOf b) ∨ i = .draw ∧ bank = s.active ∧ s.trails = false) := by
  rw [State.seqOk, hs]
  cases i <;> simp

theorem seqOk_rendering_iff (hs : s.seq = .busy i (.rendering f)) :
    s.seqOk = true ↔ i.wf = true ∧ s.frameOk i f = true := by
  simp [State.seqOk, hs]

theorem seqOk_plotting_iff (hs : s.seq = .busy i (.plotting f a)) : s.seqOk = true ↔
    i.wf = true ∧ s.frameOk i f = true ∧ 0 < f.j.toNat ∧ s.isBankWord f.bank a.addr = true := by
  simp [State.seqOk, hs, and_assoc]

theorem seqOk_writing_iff (hs : s.seq = .busy i (.writing a)) :
    s.seqOk = true ↔ i = .plot ∧ s.isBankWord s.active a.addr = true := by
  rw [State.seqOk, hs]
  cases i <;> simp [Instr.wf]

theorem seqOk_finish_iff (hs : s.seq = .busy i .finish) : s.seqOk = true ↔ i = .plot := by
  rw [State.seqOk, hs]
  cases i <;> simp [Instr.wf]

/-! ### The steps of the frame registers (42_curve_engine.md R143) -/

theorem frameOk_frameStart (hi : i = .render ∨ i = .draw) : s.frameOk i (frameStart s.active s.phase) = true :=
  frameOk_iff.2 ⟨hi, rfl, frameStart_counted _ _, by simp [frameStart], by simp [frameStart]⟩

theorem frameOk_nextPoint (h : s.frameOk i f = true) (hk : f.k.toNat < 64) (hj : f.j.toNat < 1024) (x y : Word) :
    s.frameOk i (f.nextPoint x y) = true := by
  obtain ⟨hi, hbank, hcount, h1, h2⟩ := frameOk_iff.1 h
  exact frameOk_iff.2 ⟨hi, hbank, hcount.nextPoint hk hj x y, h1, h2⟩

theorem frameOk_nextSlot (h : s.frameOk i f = true) (hk : f.k.toNat < 64) (hj : 1024 ≤ f.j.toNat) :
    s.frameOk i f.nextSlot = true := by
  obtain ⟨hi, hbank, hcount, h1, h2⟩ := frameOk_iff.1 h
  have hstep (inc : Nat) : s.phase + BitVec.ofNat 32 (f.k.toNat * inc) + BitVec.ofNat 32 inc =
      s.phase + BitVec.ofNat 32 (f.nextSlot.k.toNat * inc) := by
    rw [FrameRegs.toNat_nextSlot_k hk, Nat.succ_mul, BitVec.ofNat_add, BitVec.add_assoc]
  refine frameOk_iff.2 ⟨hi, hbank, hcount.nextSlot hk hj, ?_, ?_⟩
  · rw [← hstep, ← h1]
    rfl
  · rw [← hstep, ← h2]
    rfl

/-! ### The word of a plot (43_compositor.md R163) -/

theorem plotRead_some {pt : Point} (ha : s.params.Admissible) (h : s.plotRead bank pt = some a) :
    s.isBankWord bank a.addr = true := by
  cases ht : s.plotTarget bank pt.x pt.y with
  | none =>
    rw [State.plotRead, ht] at h
    cases h
  | some target =>
    rw [State.plotRead, ht] at h
    cases h
    obtain ⟨c, hc, haddr⟩ := plotTarget_some (addr := target.1) (px := target.2) ha ht
    simpa only [haddr] using isBankWord_bankWordAddr (bank := bank) ha hc

end SeqOk

section Invariant

variable {s t u : State} {i : Instr} {bank : Bank} {c : Word} {f : FrameRegs}

/-! ### An engine step keeps the invariant -/

theorem engineTurn_mem_wf (h : engineTurn s = .next t) (hm : s.mem.wf = true) : t.mem.wf = true := by
  obtain ⟨-, rfl⟩ | ⟨i, -, -, he⟩ | ⟨i, p, q, -, rfl⟩ | ⟨i, p, q, a, v, -, rfl⟩ | ⟨i, p, -, rfl⟩ :=
    engineTurn_cases h
  · exact hm
  · exact exec_mem_wf he hm
  · exact hm
  · exact s.mem.wf_writeWord a v hm
  · exact hm

theorem engineStart_seqOk (ha : s.params.Admissible) (hi : i.wf = true) (h : engineStart i s = .next t) :
    t.seqOk = true := by
  cases htm : touchesMemory i with
  | false =>
    rw [engineStart_of_not_touchesMemory htm] at h
    exact seqOk_of_idle (exec_completes_of_not_touchesMemory rfl htm h).1
  | true =>
    cases i with
    | clear b =>
      cases h
      exact (seqOk_clearing_iff rfl).2 ⟨hi, Nat.zero_le _, .inl ⟨b, rfl, rfl⟩⟩
    | render =>
      cases h
      exact (seqOk_rendering_iff rfl).2 ⟨hi, frameOk_frameStart (s := s) (.inl rfl)⟩
    | draw =>
      simp only [engineStart] at h
      split at h
      case isTrue =>
        cases h
        exact (seqOk_rendering_iff rfl).2 ⟨hi, frameOk_frameStart (s := s) (.inr rfl)⟩
      case isFalse ht =>
        cases h
        exact (seqOk_clearing_iff rfl).2 ⟨hi, Nat.zero_le _, .inr ⟨rfl, rfl, by simpa using ht⟩⟩
    | plot =>
      simp only [engineStart] at h
      split at h
      · cases h
        exact (seqOk_finish_iff rfl).2 rfl
      case h_2 a hread =>
        cases h
        exact (seqOk_writing_iff rfl).2 ⟨rfl, plotRead_some ha hread⟩
    | nop | present | advance | wlookup idx | glookup gidx | cstep => cases htm

theorem clearTurn_seqOk (ha : s.params.Admissible) (hs : s.seq = .busy i (.clearing bank c)) (h : s.seqOk = true) :
    (clearTurn i bank c s).seqOk = true := by
  obtain ⟨hi, hc, hbank⟩ := (seqOk_clearing_iff hs).1 h
  have hcount := four_mul_wordCount_le ha
  obtain hlt | hge := Nat.lt_or_ge c.toNat (wordCount s.params)
  · rw [clearTurn_of_lt hlt]
    refine (seqOk_clearing_iff rfl).2 ⟨hi, ?_, hbank⟩
    have hnext : (c + 1).toNat = c.toNat + 1 := BitVec.toNat_add_of_lt (by simp; omega)
    rw [hnext]
    exact hlt
  · rw [clearTurn_of_ge hge]
    obtain ⟨b, rfl, -⟩ | ⟨rfl, rfl, -⟩ := hbank
    · exact seqOk_of_idle rfl
    · exact (seqOk_rendering_iff rfl).2 ⟨hi, frameOk_frameStart (s := s) (.inr rfl)⟩

theorem renderTurn_seqOk (ha : s.params.Admissible) (hs : s.seq = .busy i (.rendering f)) (h : s.seqOk = true) :
    (renderTurn i f s).seqOk = true := by
  obtain ⟨hi, hf⟩ := (seqOk_rendering_iff hs).1 h
  obtain hk | hk := Nat.lt_or_ge f.k.toNat slots
  · obtain hj | hj := Nat.lt_or_ge f.j.toNat iterations
    · rw [renderTurn_of_point hk hj]
      have hnext : s.frameOk i (f.afterPoint s.params.quarter) = true := frameOk_nextPoint hf hk hj _ _
      cases hread : s.plotRead f.bank (f.point s.params.quarter) with
      | none => exact (seqOk_rendering_iff rfl).2 ⟨hi, hnext⟩
      | some a =>
        have hpos : 0 < (f.afterPoint s.params.quarter).j.toNat := by
          rw [FrameRegs.afterPoint, FrameRegs.toNat_nextPoint_j hj]
          exact Nat.succ_pos _
        exact (seqOk_plotting_iff rfl).2 ⟨hi, hnext, hpos, plotRead_some ha hread⟩
    · rw [renderTurn_of_slot_end hk hj]
      exact (seqOk_rendering_iff rfl).2 ⟨hi, frameOk_nextSlot hf hk hj⟩
  · rw [renderTurn_of_frame_end hk]
    exact seqOk_of_idle rfl

theorem engineTurn_seqOk (ha : s.params.Admissible) (h : s.seqOk = true) (ht : engineTurn s = .next t) :
    t.seqOk = true := by
  cases hs : s.seq with
  | idle =>
    rw [engineTurn, hs] at ht
    cases ht
    exact h
  | busy i p =>
    rw [engineTurn_of_busy_seq hs] at ht
    cases p with
    | start => exact engineStart_seqOk ha ((seqOk_start_iff hs).1 h) ht
    | clearing bank c =>
      cases ht
      exact clearTurn_seqOk ha hs h
    | rendering f =>
      cases ht
      exact renderTurn_seqOk ha hs h
    | plotting f a =>
      obtain ⟨hi, hf, -, -⟩ := (seqOk_plotting_iff hs).1 h
      cases ht
      exact (seqOk_rendering_iff rfl).2 ⟨hi, hf⟩
    | writing a =>
      obtain ⟨hi, -⟩ := (seqOk_writing_iff hs).1 h
      cases ht
      exact (seqOk_finish_iff rfl).2 hi
    | finish =>
      cases ht
      exact seqOk_of_idle rfl

theorem engineTurn_keeps_inv (h : s.Inv) (ht : engineTurn s = .next t) : t.Inv := by
  obtain ⟨ha, hm, hq⟩ := h
  have hparams : t.params = s.params := by rw [(engineTurn_registers ht).1]
  exact ⟨by rw [hparams]; exact ha, engineTurn_mem_wf ht hm, engineTurn_seqOk ha hq ht⟩

/-! ### Every other kind of step keeps it -/

theorem State.SameRegisters.inv (hu : s.SameRegisters u) (h : s.Inv) : u.Inv := by
  obtain ⟨ha, hm, hq⟩ := h
  obtain ⟨hframe, hwf⟩ := hu
  exact ⟨by rw [hframe]; exact ha, hwf hm, by rw [hframe]; exact hq⟩

theorem storeReg_seqOk (hs : s.seq = .idle) (r : Reg) (v : Word) : (s.storeReg r v).seqOk = true := by
  cases r
  case cmd =>
    simp only [State.storeReg, State.acceptWord]
    split
    · exact seqOk_of_idle hs
    case h_2 i hd => exact (seqOk_start_iff rfl).2 (encodeOfDecode v i hd).1
  all_goals exact seqOk_of_idle hs

theorem storeReg_keeps_inv (h : s.Inv) (hs : s.seq = .idle) (r : Reg) (v : Word) : (s.storeReg r v).Inv := by
  obtain ⟨ha, hm, -⟩ := h
  obtain ⟨-, -, hparams, hmem, -⟩ := storeReg_registers s r v
  exact ⟨by rw [hparams]; exact ha, by rw [hmem]; exact hm, storeReg_seqOk hs r v⟩

theorem exec_keeps_inv (h : s.Inv) (hs : s.seq = .idle) (ht : exec i s = .next t) : t.Inv := by
  obtain ⟨ha, hm, -⟩ := h
  obtain ⟨hframe, -⟩ := exec_of_idle_cases hs ht
  exact ⟨by rw [hframe]; exact ha, exec_mem_wf ht hm, seqOk_of_idle (by rw [hframe])⟩

/-! ### The parameters of this machine (00_scope.md R6, R7) -/

theorem quarterEntry_le_succ (r : Nat) : (Config.quarterEntry r).toNat ≤ (Config.quarterEntry (r + 1)).toNat := by
  rw [Config.quarterEntry]
  split
  case isTrue h => exact h
  case isFalse => exact le_rfl

theorem nondecreasing_map_range' {entry : Nat → BitVec 15} (h : ∀ r, (entry r).toNat ≤ (entry (r + 1)).toNat)
    (start n : Nat) : nondecreasing ((List.range' start n).map entry) = true := by
  induction n generalizing start with
  | zero => rfl
  | succ n ih =>
    cases n with
    | zero => rfl
    | succ n =>
      rw [List.range'_succ, List.range'_succ, List.map_cons, List.map_cons, nondecreasing, Bool.and_eq_true,
        decide_eq_true_iff]
      exact ⟨h start, ih (start + 1)⟩

theorem config_params_admissible : Config.params.Admissible := by
  have hwidth := Config.halfWidthLessOne.isLt
  have hheight := Config.heightLessOne.isLt
  have hquarter : nondecreasing Config.params.quarter = true := by
    rw [Config.params, List.range_eq_range']
    exact nondecreasing_map_range' quarterEntry_le_succ 0 4096
  refine ⟨?_, ?_, ?_, ?_, ?_, by simp [Config.params], hquarter⟩
  all_goals
    simp only [Config.params]
    omega

end Invariant

/-! ### The statements -/

/-- Settles O51: each of the five kinds of step keeps the invariant. -/
theorem stepKeepsTheInvariant : Obligations.StepKeepsTheInvariant := by
  intro s t h ht
  cases step_cases ht with
  | stays ht => exact ht.inv h
  | engine u hu ht => exact engineTurn_keeps_inv (hu.inv h) ht
  | command u hu i hs hi ht => exact exec_keeps_inv (hu.inv h) (hu.idle hs) ht
  | store u hu off v hs hal hw ht =>
    rw [ht]
    exact storeReg_keeps_inv (hu.inv h) (hu.idle hs) _ v
  | reset u hu hr ht =>
    obtain ⟨ha, hm, -⟩ := hu.inv h
    rw [ht]
    exact ⟨ha, hm, seqOk_of_idle rfl⟩

/-- Settles O52: admissible parameters, empty memory and an idle sequencer. -/
theorem resetMeetsTheInvariant : Obligations.ResetMeetsTheInvariant :=
  ⟨config_params_admissible, State.reset_mem_wf, seqOk_of_idle rfl⟩

end Sys2Proof.Machine

/-! # The engine's accesses, one step at a time

20_memory.md section 5, 42_curve_engine.md section 2, 43_compositor.md section 1. -/

namespace Sys2Proof.Machine

section Accesses

variable {s t : State} {i : Instr} {bank : Bank} {c : Word} {f : FrameRegs} {a : PlotAccess}

theorem isBankWord_aligned {addr : Word} (h : s.isBankWord bank addr = true) : addr.toNat % 4 = 0 := by
  rw [State.isBankWord, Bool.and_eq_true, decide_eq_true_iff] at h
  have hoff := h.1
  have hbase := toNat_fbBase_mod s bank
  have hlt := addr.isLt
  have hlt' := (s.fbBase bank).isLt
  rw [BitVec.toNat_sub] at hoff
  omega

/-! ### The first step -/

theorem touchesMemory_eq_false_iff : touchesMemory i = false ↔ s.targetBank i = none := by
  cases i <;> simp [touchesMemory, State.targetBank]

theorem engineStart_draw_of_not_trails (ht : s.trails = false) :
    engineStart .draw s = .next (s.setSeq (.busy .draw (.clearing s.active 0))) := by
  rw [engineStart, ht, if_neg Bool.false_ne_true]

theorem engineStart_draw_of_trails (ht : s.trails = true) :
    engineStart .draw s = .next (s.setSeq (.busy .draw (.rendering (frameStart s.active s.phase)))) := by
  rw [engineStart, if_pos ht]

/-- PLOT's read, or nothing to access for a point out of bounds (43_compositor.md R163). -/
def afterPlotRead : Option PlotAccess → Progress
  | none => .finish
  | some a => .writing a

theorem engineStart_plot (s : State) : engineStart .plot s =
    .next (s.setSeq (.busy .plot (afterPlotRead (s.plotRead s.active ⟨s.ptX, s.ptY, s.ptColor⟩)))) := by
  rw [engineStart]
  cases s.plotRead s.active ⟨s.ptX, s.ptY, s.ptColor⟩ <;> rfl

theorem engineStart_mem (h : engineStart i s = .next t) : t.mem = s.mem := by
  cases htm : touchesMemory i with
  | false =>
    rw [engineStart_of_not_touchesMemory htm] at h
    obtain ⟨-, -, hmem⟩ := exec_completes_of_not_touchesMemory rfl htm h
    exact hmem
  | true =>
    cases i with
    | clear b | render => cases h; rfl
    | draw =>
      cases ht : s.trails with
      | false => rw [engineStart_draw_of_not_trails ht] at h; cases h; rfl
      | true => rw [engineStart_draw_of_trails ht] at h; cases h; rfl
    | plot => rw [engineStart_plot] at h; cases h; rfl
    | nop | present | advance | wlookup idx | glookup gidx | cstep => cases htm

/-! ### The bank of the access -/

theorem targetBank_of_clearing (h : s.seqOk = true) (hs : s.seq = .busy i (.clearing bank c)) :
    s.targetBank i = some bank := by
  obtain ⟨-, -, ⟨b, rfl, rfl⟩ | ⟨rfl, rfl, -⟩⟩ := (seqOk_clearing_iff hs).1 h
  · rfl
  · rfl

theorem targetBank_of_frameOk (h : s.frameOk i f = true) : s.targetBank i = some f.bank := by
  obtain ⟨hi, hbank, -⟩ := frameOk_iff.1 h
  obtain rfl | rfl := hi
  · rw [hbank]; rfl
  · rw [hbank]; rfl

end Accesses

/-! ### The statement -/

/-- Settles O50: by where in its pseudocode the running command is. -/
theorem engineStepWritesAtMostOneBankWord : Obligations.EngineStepWritesAtMostOneBankWord := by
  intro s t i p hinv hs ht
  obtain ⟨ha, -, hq⟩ := hinv
  rw [engineTurn_of_busy_seq hs] at ht
  cases p with
  | start =>
    have hstart : engineStart i s = .next t := ht
    refine ⟨engineStart_mem hstart, ?_, ?_, ?_, ?_, fun hbank => ?_⟩
    · rintro b rfl
      cases hstart
      rfl
    · rintro rfl htrails
      rw [engineStart_draw_of_not_trails htrails] at hstart
      cases hstart
      rfl
    · rintro (rfl | ⟨rfl, htrails⟩)
      · cases hstart
        rfl
      · rw [engineStart_draw_of_trails htrails] at hstart
        cases hstart
        rfl
    · rintro rfl
      rw [engineStart_plot, State.plotRead] at hstart
      cases hstart
      dsimp only
      cases s.plotTarget s.active s.ptX s.ptY <;> rfl
    · have htm := touchesMemory_eq_false_iff.2 hbank
      rw [engineStart_of_not_touchesMemory htm] at hstart
      exact (exec_completes_of_not_touchesMemory rfl htm hstart).1
  | clearing bank c =>
    cases ht
    refine ⟨targetBank_of_clearing hq hs, ?_⟩
    split
    case isTrue hc =>
      have hword : s.isBankWord bank (s.bankWordAddr bank c.toNat) = true := isBankWord_bankWordAddr ha hc
      exact ⟨isBankWord_aligned hword, hword, clearTurn_of_lt hc⟩
    case isFalse hc =>
      rw [clearTurn_of_ge (not_lt.1 hc)]
      split
      case isTrue hi =>
        subst hi
        rfl
      case isFalse hi => exact afterClear_of_ne_draw hi
  | rendering f =>
    cases ht
    obtain ⟨-, hf⟩ := (seqOk_rendering_iff hs).1 hq
    refine ⟨targetBank_of_frameOk hf, ?_⟩
    split
    case isTrue hk =>
      split
      case isTrue hj =>
        refine ⟨(f.point s.params.quarter).x, (f.point s.params.quarter).y, rfl, ?_⟩
        rw [renderTurn_of_point hk hj, State.plotRead]
        cases s.plotTarget f.bank (f.point s.params.quarter).x (f.point s.params.quarter).y <;> rfl
      case isFalse hj => exact renderTurn_of_slot_end hk (not_lt.1 hj)
    case isFalse hk => exact renderTurn_of_frame_end (not_lt.1 hk)
  | plotting f a =>
    cases ht
    obtain ⟨-, hf, -, hword⟩ := (seqOk_plotting_iff hs).1 hq
    exact ⟨targetBank_of_frameOk hf, isBankWord_aligned hword, hword, rfl⟩
  | writing a =>
    cases ht
    obtain ⟨rfl, hword⟩ := (seqOk_writing_iff hs).1 hq
    exact ⟨rfl, isBankWord_aligned hword, hword, rfl⟩
  | finish =>
    cases ht
    rfl

end Sys2Proof.Machine

/-! # Running a command access by access

10_state.md section 4, 70_reset_and_hazards.md R251, log entries 2 and 3. From anywhere in a clear (`clear_reaches`) or
a frame (`frame_reaches`) the engine reaches, in a bounded number of turns, the state in which the rest of it is
done. -/

namespace Sys2Proof.Machine

section Reaches

variable {s t u : State} {m n : Nat}

/-- At most `n` engine turns with no other agent in between lead from `s` to `t`. -/
def EngineReaches (n : Nat) (s t : State) : Prop := ∃ k ≤ n, engineTurns k s = .next t

theorem EngineReaches.turn (h : engineTurn s = .next u) (hu : EngineReaches n u t) : EngineReaches (n + 1) s t := by
  obtain ⟨k, hk, hturns⟩ := hu
  exact ⟨k + 1, Nat.succ_le_succ hk, by rw [engineTurns, h]; exact hturns⟩

theorem EngineReaches.refl (s : State) (n : Nat) : EngineReaches n s s := ⟨0, Nat.zero_le n, rfl⟩

theorem EngineReaches.mono (h : EngineReaches m s t) (hmn : m ≤ n) : EngineReaches n s t := by
  obtain ⟨k, hk, hturns⟩ := h
  exact ⟨k, hk.trans hmn, hturns⟩

theorem engineTurns_add {k l : Nat} (h : engineTurns k s = .next u) : engineTurns (k + l) s = engineTurns l u := by
  induction k generalizing s with
  | zero =>
    cases h
    rw [Nat.zero_add]
  | succ k ih =>
    obtain ⟨v, hv⟩ := engineTurn_next s
    rw [engineTurns, hv] at h
    rw [Nat.succ_add, engineTurns, hv]
    exact ih h

theorem EngineReaches.trans (h : EngineReaches m s u) (hu : EngineReaches n u t) : EngineReaches (m + n) s t := by
  obtain ⟨k, hk, hturns⟩ := h
  obtain ⟨l, hl, hturns'⟩ := hu
  exact ⟨k + l, Nat.add_le_add hk hl, by rw [engineTurns_add hturns, hturns']⟩

end Reaches

section Clear

variable {s : State} {i : Instr} {bank : Bank}

/-! ### The rest of a clear (43_compositor.md R164) -/

theorem afterClear_setSeq (q : Seq) : afterClear i bank (s.setSeq q) = afterClear i bank s := by
  cases i <;> rfl

theorem clearWords_setMem_setSeq (m' : Memory) (q : Seq) (n c : Nat) (m : Memory) :
    ((s.setMem m').setSeq q).clearWords bank n c m = s.clearWords bank n c m :=
  clearWords_congr (s := s) (t := (s.setMem m').setSeq q) rfl rfl n c m

theorem clear_reaches {n : Nat} {c : Word} (ha : s.params.Admissible) (hs : s.seq = .busy i (.clearing bank c))
    (hn : c.toNat + n = wordCount s.params) :
    EngineReaches (n + 1) s (afterClear i bank (s.setMem (s.clearWords bank n c.toNat s.mem))) := by
  induction n generalizing s c with
  | zero =>
    have hturn := engineTurn_of_clearing hs
    rw [clearTurn_of_ge (by omega)] at hturn
    exact .turn hturn (.refl _ 0)
  | succ n ih =>
    have hcount := four_mul_wordCount_le ha
    have hturn := engineTurn_of_clearing hs
    rw [clearTurn_of_lt (by omega)] at hturn
    have hnext : (c + 1).toNat = c.toNat + 1 := BitVec.toNat_add_of_lt (by simp; omega)
    have hcount' : (c + 1).toNat + n = wordCount s.params := by omega
    have hrest := ih (s := (s.setMem (s.mem.writeWord (s.bankWordAddr bank c.toNat) s.params.bgWord)).setSeq
      (.busy i (.clearing bank (c + 1)))) ha rfl hcount'
    rw [clearWords_setMem_setSeq, hnext] at hrest
    refine .turn hturn ?_
    rw [State.clearWords, ← afterClear_setSeq (.busy i (.clearing bank (c + 1)))]
    exact hrest

end Clear

section Frame

variable {s : State} {i : Instr} {bank : Bank} {f : FrameRegs} {quarter : List (BitVec 15)}

/-! ### The points a frame has left (42_curve_engine.md R143) -/

/-- The points from point j of slot k on. -/
def FrameRegs.pointsLeft (f : FrameRegs) (quarter : List (BitVec 15)) : List Point :=
  if f.k.toNat < 64 then
    slotPoints quarter f.ip1 f.ip2 (1024 - f.j.toNat) f.g.toNat f.ix f.iy ++
      slotsFrom quarter (63 - f.k.toNat) (f.k.toNat + 1) (f.ip1 + ang1inc) (f.ip2 + ang2inc)
  else []

theorem pointsLeft_frameStart (t : Word) : (frameStart bank t).pointsLeft quarter = framePoints quarter t := by
  have hk : (frameStart bank t).k.toNat = 0 := rfl
  rw [framePoints, show slots = 63 + 1 from rfl, slotsFrom, FrameRegs.pointsLeft, hk, if_pos (by decide)]
  rfl

theorem pointsLeft_of_frame_end (hk : 64 ≤ f.k.toNat) : f.pointsLeft quarter = [] := if_neg (not_lt.2 hk)

theorem pointsLeft_of_point (hf : f.Counted) (hk : f.k.toNat < 64) (hj : f.j.toNat < 1024) :
    f.pointsLeft quarter = f.point quarter :: (f.afterPoint quarter).pointsLeft quarter := by
  have hleft : 1024 - f.j.toNat = 1024 - (f.j.toNat + 1) + 1 := by omega
  have hk' : (f.afterPoint quarter).k.toNat = f.k.toNat := rfl
  rw [FrameRegs.pointsLeft, FrameRegs.pointsLeft, if_pos hk, hk', if_pos hk, hleft, slotPoints, List.cons_append,
    FrameRegs.afterPoint, FrameRegs.toNat_nextPoint_j hj, hf.toNat_nextPoint_g hk hj]
  rfl

theorem pointsLeft_of_slot_end (hf : f.Counted) (hk : f.k.toNat < 64) (hj : 1024 ≤ f.j.toNat) :
    f.pointsLeft quarter = f.nextSlot.pointsLeft quarter := by
  have hle := hf.iteration_le
  have hnone : 1024 - f.j.toNat = 0 := by omega
  have hk' := FrameRegs.toNat_nextSlot_k hk
  have hg' : f.nextSlot.g.toNat = (f.k.toNat + 1) * 1024 := by
    have hg : f.nextSlot.g.toNat = f.g.toNat := rfl
    have hindex := hf.index_eq
    omega
  rw [FrameRegs.pointsLeft, if_pos hk, hnone, slotPoints, List.nil_append, FrameRegs.pointsLeft, hk']
  split
  case isTrue hlt =>
    have hslots : 63 - f.k.toNat = 63 - (f.k.toNat + 1) + 1 := by omega
    rw [hslots, slotsFrom, hg']
    rfl
  case isFalse hlast =>
    have hslots : 63 - f.k.toNat = 0 := by omega
    rw [hslots, slotsFrom]

/-! ### The rest of a frame -/

/-- The turns a frame has left: two for each point at most, one for the end of each slot, and the completing one. -/
def FrameRegs.turnsLeft (f : FrameRegs) : Nat := 2 * (65536 - f.g.toNat) + (64 - f.k.toNat) + 1

theorem plotPoint_of_plotRead_none {pt : Point} (h : s.plotRead bank pt = none) :
    s.plotPoint bank s.mem pt = s.mem :=
  plotPoint_of_plotTarget_none (Option.map_eq_none_iff.1 h)

theorem plotPoint_of_plotRead_some {pt : Point} {a : PlotAccess} (h : s.plotRead bank pt = some a) :
    s.plotPoint bank s.mem pt = s.mem.writeWord a.addr (pack a.w a.px a.color) := by
  obtain ⟨⟨addr, px⟩, htarget, rfl⟩ := Option.map_eq_some_iff.1 h
  exact plotPoint_of_plotTarget_some htarget

/-- The state in which the frame is completed from `s` on. -/
def State.afterFrame (s : State) (f : FrameRegs) : State :=
  (s.setMem ((f.pointsLeft s.params.quarter).foldl (s.plotPoint f.bank) s.mem)).complete

theorem afterFrame_of_point (hf : f.Counted) (hk : f.k.toNat < 64) (hj : f.j.toNat < 1024) :
    s.afterFrame f = (s.setMem (s.plotPoint f.bank s.mem (f.point s.params.quarter))).afterFrame
      (f.afterPoint s.params.quarter) := by
  rw [State.afterFrame, pointsLeft_of_point hf hk hj, List.foldl_cons]
  rfl

theorem turnsLeft_of_point (hf : f.Counted) (hk : f.k.toNat < 64) (hj : f.j.toNat < 1024) :
    f.turnsLeft = (f.afterPoint quarter).turnsLeft + 1 + 1 := by
  have hk' : (f.afterPoint quarter).k.toNat = f.k.toNat := rfl
  have hg' : (f.afterPoint quarter).g.toNat = f.g.toNat + 1 := hf.toNat_nextPoint_g hk hj _ _
  have hindex := hf.index_eq
  rw [FrameRegs.turnsLeft, FrameRegs.turnsLeft, hk', hg']
  omega

theorem turnsLeft_of_slot_end (hk : f.k.toNat < 64) : f.turnsLeft = f.nextSlot.turnsLeft + 1 := by
  have hk' := FrameRegs.toNat_nextSlot_k hk
  have hg' : f.nextSlot.g = f.g := rfl
  rw [FrameRegs.turnsLeft, FrameRegs.turnsLeft, hk', hg']
  omega

theorem frame_reaches (hf : f.Counted) (hs : s.seq = .busy i (.rendering f)) :
    EngineReaches f.turnsLeft s (s.afterFrame f) := by
  induction hn : f.turnsLeft using Nat.strong_induction_on generalizing s f with
  | _ n ih =>
    have hturn := engineTurn_of_rendering hs
    subst hn
    obtain hk | hk := Nat.lt_or_ge f.k.toNat 64
    · obtain hj | hj := Nat.lt_or_ge f.j.toNat 1024
      · have hnext := hf.nextPoint hk hj (f.point s.params.quarter).x (f.point s.params.quarter).y
        have hleft := turnsLeft_of_point (quarter := s.params.quarter) hf hk hj
        rw [renderTurn_of_point hk hj] at hturn
        rw [hleft, afterFrame_of_point hf hk hj]
        cases hread : s.plotRead f.bank (f.point s.params.quarter) with
        | none =>
          rw [hread] at hturn
          rw [plotPoint_of_plotRead_none hread]
          have hrest := ih _ (by omega) (f := f.afterPoint s.params.quarter)
            (s := s.setSeq (.busy i (.rendering (f.afterPoint s.params.quarter)))) hnext rfl rfl
          exact .turn hturn (hrest.mono (Nat.le_succ _))
        | some a =>
          rw [hread] at hturn
          rw [plotPoint_of_plotRead_some hread]
          have hrest := ih _ (by omega) (f := f.afterPoint s.params.quarter)
            (s := (s.plotWrite a).setSeq (.busy i (.rendering (f.afterPoint s.params.quarter)))) hnext rfl rfl
          exact .turn hturn (.turn (engineTurn_of_plotting rfl) hrest)
      · have hleft := turnsLeft_of_slot_end hk
        rw [renderTurn_of_slot_end hk hj] at hturn
        have hrest := ih _ (by omega) (hf.nextSlot hk hj) (s := s.setSeq (.busy i (.rendering f.nextSlot))) rfl rfl
        rw [hleft, State.afterFrame, pointsLeft_of_slot_end hf hk hj]
        exact .turn hturn hrest
    · rw [renderTurn_of_frame_end hk] at hturn
      rw [State.afterFrame, pointsLeft_of_frame_end hk]
      exact .turn hturn (.refl _ _)

end Frame

section Commands

variable {s t : State} {i : Instr} {bank : Bank} {c : Word} {f : FrameRegs}

/-! ### Every command from its acceptance on -/

theorem turnsLeft_le (f : FrameRegs) : f.turnsLeft ≤ 131137 := by
  rw [FrameRegs.turnsLeft]
  omega

theorem render_reaches (hs : s.seq = .busy i (.rendering (frameStart bank s.phase))) :
    EngineReaches 131137 s (s.setMem (s.renderBank bank s.mem)).complete := by
  have hframe := (frame_reaches (frameStart_counted bank s.phase) hs).mono (turnsLeft_le _)
  rw [State.afterFrame, pointsLeft_frameStart] at hframe
  exact hframe

theorem bankClear_reaches (ha : s.params.Admissible) (hs : s.seq = .busy i (.clearing bank 0)) :
    EngineReaches (wordCount s.params + 1) s (afterClear i bank (s.setMem (s.clearBank bank s.mem))) :=
  clear_reaches ha hs (Nat.zero_add _)

/-- DRAW's second stage, after its clear (44_frame_control.md R181). -/
theorem afterClear_draw_reaches (s : State) (bank : Bank) :
    EngineReaches 131137 (afterClear .draw bank s) (s.setMem (s.renderBank bank s.mem)).complete :=
  render_reaches (s := s.setSeq (.busy .draw (.rendering (frameStart bank s.phase)))) rfl

theorem draw_reaches (ha : s.params.Admissible) (hs : s.seq = .busy .draw .start) :
    EngineReaches (wordCount s.params + 131139) s (s.setMem (s.drawBank s.active s.mem)).complete := by
  cases ht : s.trails with
  | true =>
    have hturn := (engineTurn_of_busy_seq hs).trans (engineStart_draw_of_trails ht)
    rw [drawBank_of_trails ht]
    exact (EngineReaches.turn hturn (render_reaches (bank := s.active) rfl)).mono (by omega)
  | false =>
    have hturn := (engineTurn_of_busy_seq hs).trans (engineStart_draw_of_not_trails ht)
    have hclear := bankClear_reaches (s := s.setSeq (.busy .draw (.clearing s.active 0))) ha rfl
    have hframe := afterClear_draw_reaches (s.setMem (s.clearBank s.active s.mem)) s.active
    rw [clearBank_setSeq] at hclear
    rw [drawBank_of_not_trails (by simp [ht])]
    exact .mono (.turn hturn (hclear.trans hframe)) (by simp only [State.setSeq_params]; omega)

theorem plot_reaches (hs : s.seq = .busy .plot .start) : EngineReaches 3 s
    (s.setMem (s.plotPoint s.active s.mem ⟨s.ptX, s.ptY, s.ptColor⟩)).complete := by
  have hturn := (engineTurn_of_busy_seq hs).trans (engineStart_plot s)
  cases hread : s.plotRead s.active ⟨s.ptX, s.ptY, s.ptColor⟩ with
  | none =>
    rw [hread] at hturn
    rw [plotPoint_of_plotRead_none hread]
    exact .turn hturn (.turn (engineTurn_of_finish rfl) (.refl _ 1))
  | some a =>
    rw [hread] at hturn
    rw [plotPoint_of_plotRead_some hread]
    exact .turn hturn (.turn (engineTurn_of_writing rfl) (.turn (engineTurn_of_finish rfl) (.refl _ 0)))

/-- From its acceptance every command reaches what its meaning gives on the idle state. -/
theorem start_reaches (ha : s.params.Admissible) (hs : s.seq = .busy i .start)
    (ht : exec i (s.setSeq .idle) = .next t) : EngineReaches (wordCount s.params + 131139) s t := by
  cases i with
  | clear b =>
    have hclear := bankClear_reaches (s := s.setSeq (.busy (.clear b) (.clearing (bankOf b) 0))) ha rfl
    rw [clearBank_setSeq] at hclear
    cases ht
    simp only [State.setSeq_mem, clearBank_setSeq]
    exact .mono (.turn (engineTurn_of_busy_seq hs) hclear) (by simp only [State.setSeq_params]; omega)
  | render =>
    cases ht
    exact (EngineReaches.turn (engineTurn_of_busy_seq hs) (render_reaches (bank := s.active) rfl)).mono (by omega)
  | draw =>
    have hmem : (s.setSeq .idle).drawBank s.active s.mem = s.drawBank s.active s.mem := by
      rw [State.drawBank, State.drawBank, clearBank_setSeq]
      rfl
    cases ht
    simp only [State.setSeq_mem, State.setSeq_active, hmem]
    exact draw_reaches ha hs
  | plot =>
    cases ht
    exact (plot_reaches hs).mono (by omega)
  | nop | present | advance | wlookup idx | glookup gidx | cstep =>
    exact .turn ((engineTurn_of_busy_seq hs).trans ht) (.refl _ _)

/-- From the rest of a clear on the running command is completed: CLEAR by its end, DRAW by its frame. -/
theorem clearing_completes (ha : s.params.Admissible) (hs : s.seq = .busy i (.clearing bank c))
    (hc : c.toNat ≤ wordCount s.params) :
    ∃ u : State, EngineReaches (wordCount s.params + 131139) s u.complete := by
  obtain ⟨n, hn⟩ := Nat.exists_eq_add_of_le hc
  have hclear := clear_reaches ha hs hn.symm
  by_cases hi : i = .draw
  · subst hi
    exact ⟨_, (hclear.trans (afterClear_draw_reaches _ bank)).mono (by omega)⟩
  · rw [afterClear_of_ne_draw hi] at hclear
    exact ⟨_, hclear.mono (by omega)⟩

theorem running_completes (h : s.Inv) (hb : s.isBusy = true) :
    ∃ t, EngineReaches (wordCount s.params + 131139) s t ∧ t.seq = .idle ∧ t.done = true := by
  obtain ⟨ha, -, hq⟩ := h
  obtain ⟨i, p, hs⟩ := State.isBusy_eq_true_iff.1 hb
  cases p with
  | start =>
    obtain ⟨t, ht, hdone, hidle⟩ := exec_of_idle_sets_done (s := s.setSeq .idle) (i := i) rfl
    exact ⟨t, start_reaches ha hs ht, hidle, hdone⟩
  | clearing bank c =>
    obtain ⟨-, hc, -⟩ := (seqOk_clearing_iff hs).1 hq
    obtain ⟨u, hu⟩ := clearing_completes ha hs hc
    exact ⟨_, hu, rfl, rfl⟩
  | rendering f =>
    obtain ⟨-, hf⟩ := (seqOk_rendering_iff hs).1 hq
    obtain ⟨-, -, hcount, -⟩ := frameOk_iff.1 hf
    exact ⟨_, (frame_reaches hcount hs).mono ((turnsLeft_le f).trans (by omega)), rfl, rfl⟩
  | plotting f a =>
    obtain ⟨-, hf, -⟩ := (seqOk_plotting_iff hs).1 hq
    obtain ⟨-, -, hcount, -⟩ := frameOk_iff.1 hf
    have hrest := (frame_reaches (i := i) (s := (s.plotWrite a).setSeq (.busy i (.rendering f))) hcount rfl).mono
      (turnsLeft_le f)
    exact ⟨_, (EngineReaches.turn (engineTurn_of_plotting hs) hrest).mono (by omega), rfl, rfl⟩
  | writing a =>
    exact ⟨_, .turn (engineTurn_of_writing hs) (.turn (engineTurn_of_finish rfl) (.refl _ _)), rfl, rfl⟩
  | finish => exact ⟨_, .turn (engineTurn_of_finish hs) (.refl _ _), rfl, rfl⟩

end Commands

/-! ### The statements -/

/-- Settles O48: from the first step on, command by command. -/
theorem engineTurnsReachTheMeaning : Obligations.EngineTurnsReachTheMeaning := by
  intro s i ha hs
  obtain ⟨t, ht⟩ := exec_next i s
  obtain ⟨n, hn, hturns⟩ := start_reaches (s := s.setSeq (.busy i .start)) (t := t) ha rfl
    (by rw [← ht, ← State.setSeq_idle_self hs]; rfl)
  exact ⟨n, hn, hturns.trans ht.symm⟩

/-- Settles O49: by where in its pseudocode the running command is. -/
theorem everyRunningCommandCompletes : Obligations.EveryRunningCommandCompletes := by
  intro s h hb
  obtain ⟨t, ⟨n, hn, hturns⟩, hidle, hdone⟩ := running_completes h hb
  exact ⟨n, t, hn, hturns, hidle, hdone⟩

end Sys2Proof.Machine

/-! # The host reference model

60_exceptions.md section 5. A frame's update is its moves, which keep the saved speed and trails (`hostMoves`), then
the chord, then the toggles; its writes are five register stores to the idle block. -/

namespace Sys2Proof.Machine

section Update

variable {p : Params} {inp : HostInput} {h : HostCtl}

/-! ### One frame's update (R221) -/

/-- The transitions before the reset chord. -/
def hostMoves (p : Params) (inp : HostInput) (h : HostCtl) : HostCtl :=
  hostSpeed inp (hostZoom p inp (hostPan inp { h with justReset := false }))

theorem hostUpdate_eq (p : Params) (inp : HostInput) (h : HostCtl) :
    hostUpdate p inp h = hostTrails inp (hostFreeze inp (hostChord p inp (hostMoves p inp h))) := rfl

theorem hostMoves_speed : (hostMoves p inp h).speed =
    h.speed + (if inp.speedUp = true then 1 else 0) - (if inp.slowDown = true then 1 else 0) := by
  simp [hostMoves, hostSpeed]

theorem hostMoves_savedSpeed : (hostMoves p inp h).savedSpeed = h.savedSpeed := by
  simp [hostMoves, hostSpeed]

theorem hostMoves_trails : (hostMoves p inp h).trails = h.trails := by
  simp [hostMoves, hostSpeed]

theorem hostMoves_justReset : (hostMoves p inp h).justReset = false := by
  simp [hostMoves, hostSpeed]

/-! ### The toggles (R227, R228) -/

theorem hostFreeze_of_justReset (hj : h.justReset = true) : hostFreeze inp h = h := by
  simp [hostFreeze, hj]

theorem hostTrails_of_justReset (hj : h.justReset = true) : hostTrails inp h = h := by
  simp [hostTrails, hj]

theorem hostFreeze_of_no_edge (hf : inp.freeze = false) : hostFreeze inp h = h := by
  simp [hostFreeze, hf]

theorem hostFreeze_of_moving (hf : inp.freeze = true) (hj : h.justReset = false) (hv : h.speed ≠ 0) :
    hostFreeze inp h = { h with savedSpeed := h.speed, speed := 0 } := by
  simp [hostFreeze, hf, hj, hv]

theorem hostFreeze_of_frozen (hf : inp.freeze = true) (hj : h.justReset = false) (hv : h.speed = 0) :
    hostFreeze inp h = { h with speed := h.savedSpeed } := by
  simp [hostFreeze, hf, hj, hv]

theorem hostFreeze_keeps : (hostFreeze inp h).trails = h.trails ∧ (hostFreeze inp h).justReset = h.justReset := by
  unfold hostFreeze
  split
  · split <;> exact ⟨rfl, rfl⟩
  · exact ⟨rfl, rfl⟩

theorem hostTrails_keeps :
    (hostTrails inp h).speed = h.speed ∧ (hostTrails inp h).savedSpeed = h.savedSpeed := by
  unfold hostTrails
  split <;> exact ⟨rfl, rfl⟩

theorem hostTrails_trails (hj : h.justReset = false) :
    (hostTrails inp h).trails = if inp.trails = true then !h.trails else h.trails := by
  cases ht : inp.trails <;> simp [hostTrails, ht, hj]

/-! ### With and without the chord (R225, R226, R229) -/

theorem hostUpdate_of_chord (hc : inp.chord = true) : hostUpdate p inp h =
    { HostCtl.initial p with savedSpeed := h.savedSpeed, justReset := true } := by
  rw [hostUpdate_eq, hostChord, if_pos hc, hostFreeze_of_justReset rfl, hostTrails_of_justReset rfl,
    hostMoves_savedSpeed]

theorem hostUpdate_of_no_chord (hc : inp.chord = false) :
    hostUpdate p inp h = hostTrails inp (hostFreeze inp (hostMoves p inp h)) := by
  rw [hostUpdate_eq, hostChord, hc, if_neg Bool.false_ne_true]

theorem hostUpdate_speeds_of_no_chord (hc : inp.chord = false) :
    (hostUpdate p inp h).speed = (hostFreeze inp (hostMoves p inp h)).speed ∧
      (hostUpdate p inp h).savedSpeed = (hostFreeze inp (hostMoves p inp h)).savedSpeed := by
  rw [hostUpdate_of_no_chord hc]
  exact hostTrails_keeps

theorem hostUpdate_trails_of_no_chord (hc : inp.chord = false) :
    (hostUpdate p inp h).trails = if inp.trails = true then !h.trails else h.trails := by
  obtain ⟨htrails, hreset⟩ := hostFreeze_keeps (inp := inp) (h := hostMoves p inp h)
  rw [hostUpdate_of_no_chord hc, hostTrails_trails (hreset.trans hostMoves_justReset), htrails, hostMoves_trails]

end Update

section Scale

variable {p : Params} {n : Nat}

/-! ### The initial state as integers (R226, R230) -/

theorem hostTrunc_hostScaleExact (hn : n % 2 = 0) : hostTrunc (hostScaleExact n) = (n / 2 * piDigits / piUnit : ℕ) := by
  have hhalf : n * piDigits / (2 * piUnit) = n / 2 * piDigits / piUnit := by
    simp only [piDigits, piUnit]
    omega
  rw [← hhalf]
  rfl

/-- The decimals of pi are exact to far below 10^-15 of the product. -/
theorem hostScaleExact_near (hn : n ≤ 32768) :
    |((hostScaleExact n).num : ℝ) / (hostScaleExact n).den - (n : ℝ) / 2 * Real.pi| < 1 / 10 ^ 15 := by
  have hexact : ((hostScaleExact n).num : ℝ) / (hostScaleExact n).den = (n : ℝ) / 2 * ((piDigits : ℝ) / piUnit) := by
    simp only [hostScaleExact]
    push_cast
    ring
  have hlo := piDigits_lt_pi
  have hhi := pi_lt_succ_piDigits
  have hunit : ((piDigits + 1 : ℕ) : ℝ) / piUnit = (piDigits : ℝ) / piUnit + 1 / 10 ^ 20 := by
    norm_num [piDigits, piUnit]
  have hn' : (n : ℝ) / 2 ≤ 16384 := by
    have : (n : ℝ) ≤ 32768 := by exact_mod_cast hn
    linarith
  have hn0 : (0 : ℝ) ≤ (n : ℝ) / 2 := by positivity
  rw [hunit] at hhi
  rw [hexact, ← mul_sub, abs_mul, abs_of_nonneg hn0, abs_of_neg (by linarith)]
  calc (n : ℝ) / 2 * -((piDigits : ℝ) / piUnit - Real.pi) ≤ 16384 * (1 / 10 ^ 20) := by
        apply mul_le_mul hn' (by linarith) (by linarith) (by norm_num)
    _ < 1 / 10 ^ 15 := by norm_num

theorem floor_half_mul_pi (hn : n % 2 = 0) (hle : n ≤ 32768) :
    ⌊(n : ℝ) / 2 * Real.pi⌋ = (n / 2 * piDigits / piUnit : ℕ) := by
  have hhalf : ((n / 2 : ℕ) : ℝ) = (n : ℝ) / 2 := Nat.cast_div_charZero (Nat.dvd_of_mod_eq_zero hn)
  rw [← floor_mul_pi (by omega), ← hhalf, Int.natCast_floor_eq_floor (by positivity)]

end Scale

section HostFrame

variable {s t : State} {rest : List Event} {off : Byte} {v : Word}

/-! ### The frame's writes (R230) -/

theorem run_succ_of_step (h : step s = .next t) (k : Nat) :
    Host.Core.run core (k + 1) s = Host.Core.run core k t := coreRun_succ_of_step (M := core) h k

theorem step_of_hostFrame_pending {inp : HostInput} (hp : s.pending = .hostFrame inp :: rest) :
    step s = .next ((s.setPending rest).hostFrame inp) := by
  rw [step, stepOnce, hp]
  rfl

theorem step_of_wait_pending (hs : s.seq = .idle) (hp : s.pending = .wait :: rest) :
    step s = .next (s.setPending rest) := by
  rw [step, stepOnce, hp]
  exact if_neg (by simp [State.isBusy_of_idle (s := s.setPending rest) hs])

theorem step_of_write_pending (hs : s.seq = .idle) (hp : s.pending = .write off .word v :: rest)
    (hal : off.toNat % 4 = 0) : step s = .next ((s.setPending rest).storeReg (regAt off) v) := by
  rw [step, stepOnce, hp]
  dsimp only
  rw [act_write_of_aligned hal, writeReg_of_idle (State.isBusy_of_idle (s := s.setPending rest) hs)]

theorem storeReg_seq {r : Reg} (hr : r ≠ .cmd) : (s.storeReg r v).seq = s.seq := by
  cases r
  case cmd => exact absurd rfl hr
  all_goals rfl

theorem storeReg_setPending {r : Reg} (hr : r ≠ .cmd) (l l' : List Event) :
    ((s.setPending l).storeReg r v).setPending l' = (s.setPending l').storeReg r v := by
  cases r
  case cmd => exact absurd rfl hr
  all_goals rfl

/-- Register writes of the host, as coming actions. -/
def writeEvents (writes : List (Byte × Word)) : List Event := writes.map fun w => .write w.1 .word w.2

/-- The same writes stored one after another. -/
def State.storeAll (s : State) (writes : List (Byte × Word)) : State :=
  writes.foldl (fun s w => s.storeReg (regAt w.1) w.2) s

/-- Writes to an idle block that are next in the list, none of them a command, are stored in as many steps. -/
theorem run_writeEvents {writes : List (Byte × Word)} (hs : s.seq = .idle)
    (hp : s.pending = writeEvents writes ++ rest)
    (hregs : ∀ w ∈ writes, w.1.toNat % 4 = 0 ∧ regAt w.1 ≠ .cmd) :
    Host.Core.run core writes.length s = .next ((s.setPending rest).storeAll writes) := by
  induction writes generalizing s with
  | nil =>
    have hpending : s.pending = rest := hp
    rw [← hpending]
    rfl
  | cons w writes ih =>
    obtain ⟨hal, hcmd⟩ := hregs w List.mem_cons_self
    have hpending : s.pending = .write w.1 .word w.2 :: (writeEvents writes ++ rest) := hp
    rw [List.length_cons, run_succ_of_step (step_of_write_pending hs hpending hal)]
    have hrest := ih (s := (s.setPending (writeEvents writes ++ rest)).storeReg (regAt w.1) w.2)
      ((storeReg_seq hcmd).trans hs) ?_ fun w' hw' => hregs w' (List.mem_cons_of_mem w hw')
    · rw [storeReg_setPending hcmd] at hrest
      exact hrest
    · rw [← storeReg_setPending hcmd (writeEvents writes ++ rest)]
      rfl

/-- The registers of a frame's writes and their values (R230). -/
def frameWrites (irqEn : Bool) (h : HostCtl) : List (Byte × Word) :=
  [(0x14, BitVec.ofInt 32 (hostTrunc h.panX)), (0x18, BitVec.ofInt 32 (hostTrunc h.panY)),
    (0x1C, BitVec.ofInt 32 (hostTrunc h.scale)), (0x10, BitVec.ofInt 32 h.speed),
    (0x08, (0 : BitVec 30) ++ BitVec.ofBool irqEn ++ BitVec.ofBool h.trails)]

theorem frameWrites_registers (irqEn : Bool) (h : HostCtl) :
    ∀ w ∈ frameWrites irqEn h, w.1.toNat % 4 = 0 ∧ regAt w.1 ≠ .cmd := by
  simp [frameWrites, regAt]

/-- The word the host writes to CTRL holds TRAILS and IRQ_EN. -/
theorem storeReg_ctrl_append (s : State) (irqEn trails : Bool) :
    s.storeReg .ctrl ((0 : BitVec 30) ++ BitVec.ofBool irqEn ++ BitVec.ofBool trails) =
      { s with trails := trails, irqEn := irqEn } := by
  cases irqEn <;> cases trails <;> rfl

theorem storeAll_frameWrites (s : State) (irqEn : Bool) (h : HostCtl) : s.storeAll (frameWrites irqEn h) =
    { s with
      xpan := BitVec.ofInt 32 (hostTrunc h.panX), ypan := BitVec.ofInt 32 (hostTrunc h.panY)
      scalemul := BitVec.ofInt 32 (hostTrunc h.scale), speed := BitVec.ofInt 32 h.speed
      trails := h.trails, irqEn := irqEn } := by
  have hxpan : regAt 0x14 = .xpan := rfl
  have hypan : regAt 0x18 = .ypan := rfl
  have hscale : regAt 0x1C = .scalemul := rfl
  have hspeed : regAt 0x10 = .speed := rfl
  have hctrl : regAt 0x08 = .ctrl := rfl
  simp only [State.storeAll, frameWrites, List.foldl_cons, List.foldl_nil, hxpan, hypan, hscale, hspeed, hctrl,
    storeReg_ctrl_append]
  simp only [State.storeReg]

end HostFrame

/-! ### The statements -/

/-- Settles O57: the chord gives the initial state, whose integer parts are the reset values. -/
theorem hostResetChordRestores : Obligations.HostResetChordRestores := by
  refine ⟨fun p inp h hc => hostUpdate_of_chord hc, fun n hn => ⟨fun hodd => ?_, hostScaleExact_near hn⟩,
    fun p inp h ha heven hc => ?_⟩
  · rw [hostScaleReset]
    exact if_pos (.inl hodd)
  · obtain ⟨-, -, -, -, hheight, -⟩ := ha
    have hscale : hostTrunc (HostCtl.initial p).scale = (p.height / 2 * piDigits / piUnit : ℕ) := by
      rw [← hostTrunc_hostScaleExact heven, ← hostTrunc_hostScaleReset heven]
      rfl
    have hword : BitVec.ofInt 32 (hostTrunc (HostCtl.initial p).scale) = scalemulReset p := by
      rw [hscale, BitVec.ofInt_natCast, scalemulReset]
    rw [hostUpdate_of_chord hc, floor_half_mul_pi heven hheight]
    exact ⟨hscale, rfl, rfl, hword, rfl, rfl⟩

/-- Settles O58: by the chord, the freeze edge and the speed after the speed edges. -/
theorem hostFreezeAndTrailsToggle : Obligations.HostFreezeAndTrailsToggle := by
  intro p inp h v hv
  have hspeed : (hostMoves p inp h).speed = v := hostMoves_speed.trans hv.symm
  have hspeeds (hc : inp.chord = false) := hostUpdate_speeds_of_no_chord (p := p) (h := h) hc
  refine ⟨fun hc hf => ?_, fun hc hf hmoving => ?_, fun hc hf hfrozen => ?_, hostUpdate_trails_of_no_chord,
    fun hc => ?_⟩
  · rw [(hspeeds hc).1, (hspeeds hc).2, hostFreeze_of_no_edge hf]
    exact ⟨hspeed, hostMoves_savedSpeed⟩
  · rw [(hspeeds hc).1, (hspeeds hc).2, hostFreeze_of_moving hf hostMoves_justReset (by rw [hspeed]; exact hmoving)]
    exact ⟨rfl, hspeed⟩
  · rw [(hspeeds hc).1, (hspeeds hc).2, hostFreeze_of_frozen hf hostMoves_justReset (by rw [hspeed]; exact hfrozen)]
    exact ⟨hostMoves_savedSpeed, hostMoves_savedSpeed⟩
  · rw [hostUpdate_of_chord hc]
    exact ⟨rfl, rfl, rfl⟩

/-- Settles O59: the update, the WAIT that finds the block idle, and five register stores. -/
theorem hostFrameWritesTheBlock : Obligations.HostFrameWritesTheBlock := by
  intro s inp rest h hs hp hh
  have hframe : (s.setPending rest).hostFrame inp =
      State.setPending { s with host := h } (.wait :: (writeEvents (frameWrites s.irqEn h) ++ rest)) := by
    rw [hh]
    rfl
  rw [run_succ_of_step (step_of_hostFrame_pending hp) 6, hframe,
    run_succ_of_step (step_of_wait_pending (s := State.setPending { s with host := h } _) hs rfl) 5]
  have hwrites := run_writeEvents (rest := rest)
    (s := State.setPending { s with host := h } (writeEvents (frameWrites s.irqEn h) ++ rest)) hs rfl
    (frameWrites_registers s.irqEn h)
  rw [storeAll_frameWrites] at hwrites
  exact hwrites

end Sys2Proof.Machine
